-- ==== Sys2Proof/Word.lean ====
section
/-! DEFINITION. The word types of the block: bytes of the wire and of the staged block, and the 32-bit numbers of the
command blocks (spec/10_state.md R10, R12). -/

namespace Sys2Proof

/-- One byte of the wire, of `STAGED_RAW` and of `SR`. -/
abbrev Byte := BitVec 8

/-- A 32-bit unsigned number: `period`, `step_counter`, `ACC`. -/
abbrev Word := BitVec 32

end Sys2Proof
end

