-- ==== Sys2Proof/Config.lean ====
section
/-! DEFINITION. What one implementation of the block fixes: the parameters of spec/00_scope.md R4. The three marked OPEN
there have no value in any source; each is an opaque constant here, so that no proof can see a value of it. -/

namespace Sys2Proof.Config

/-- The two readings of "high byte" that `TX_HIGH_SEL` chooses between (R4, spec/20_memory.md R43). -/
inductive TxHighSel where
  /-- byte 0 of the telemetry stream is bits 31:24 of the counter -/
  | msb32
  /-- byte 0 of the telemetry stream is bits 15:8 of the counter -/
  | hi16
  deriving DecidableEq, Repr, Inhabited

/-- `OWN_ADDR`, the primary 7-bit address: OPEN (R4, U5; log entry 4). -/
opaque ownAddr : BitVec 7

/-- `BCAST_ADDR`, the broadcast address: OPEN (R4, U5; log entry 4). -/
opaque bcastAddr : BitVec 7

/-- `TX_HIGH_SEL`: OPEN (R4, U6; log entries 4 and 18). -/
opaque txHighSel : TxHighSel

/-- `TIMER_MAX`, the largest reload of the 16-bit timer (R4). UNVERIFIED: decision D4 of the spec; log entry 8. -/
abbrev timerMax : Nat := 65535

/-- The number of bytes of the staged block, `STAGED_WIDTH` (R4). -/
abbrev stagedWidth : Nat := 9

end Sys2Proof.Config
end

