-- ==== Sys2Proof/Syntax.lean ====
section
/-! DEFINITION. The instructions: one constructor for each row of spec/opcode_table.json, in the table's order. The block
has no processor; its "instruction set" is the wire bytes, the hardware events and the procedures they call
(spec/00_scope.md R1, spec/30_encoding.md R62). -/

namespace Sys2Proof

/-- The rows of the opcode table. -/
inductive Instr where
  /-- ENABLE, opcode 0xA1 (R151) -/
  | enable
  /-- DISABLE, opcode 0xA2 (R152) -/
  | disable
  /-- BEGIN, opcode 0xA3 (R153) -/
  | begin
  /-- PAUSE, opcode 0xA4 (R154) -/
  | pause
  /-- RESUME, opcode 0xA5 (R155) -/
  | resume
  /-- STOP, reserved value 0xA6 (R156) -/
  | stop
  /-- READ_PERIOD, reserved value 0xB1 (R157) -/
  | readPeriod
  /-- READ_STEPS, opcode 0xB2 (R158) -/
  | readSteps
  /-- READ_SETTINGS, reserved value 0xB3 (R159) -/
  | readSettings
  /-- PAYLOAD0, the first payload byte (R160) -/
  | payload0 (v : Byte)
  /-- PAYLOADn, a later payload byte, stored at the offset `RX_INDEX` (R128) -/
  | payloadN (v : Byte)
  /-- ADDR_W, an address byte whose R/W bit is 0 (R61, R122) -/
  | addrW (addr : BitVec 7)
  /-- ADDR_R, an address byte whose R/W bit is 1 (R61, R122) -/
  | addrR (addr : BitVec 7)
  /-- CONTROL_BYTE, the fields of payload byte 8: reserved 7:4, hold_position 3, direction 2, mode_index 1:0 (R11, R64) -/
  | controlByte (reserved : BitVec 4) (hold direction : Bool) (modeIndex : BitVec 2)
  /-- LOAD, the nine payload bytes of a staged-command write (R63) -/
  | load (period stepCounter : Word) (reserved : BitVec 4) (hold direction : Bool) (modeIndex : BitVec 2)
  /-- READ, the block sends the next telemetry byte (R130) -/
  | read
  /-- RESET, the external reset (R211) -/
  | reset
  /-- TICK, one tick of the timer clock (R80) -/
  | tick
  /-- EXPIRE, the timer expiry (R81) -/
  | expire
  /-- EXPIRE.carry, the expiry that only reloads (R82) -/
  | expireCarry
  /-- EXPIRE.step, the expiry that steps (R83) -/
  | expireStep
  /-- START, a start condition (R103) -/
  | start
  /-- BIT, one clock pulse with the level `m` of the other devices (R104) -/
  | bit (m : Bool)
  /-- SHIFT_DONE in the state AddressWait (R122) -/
  | shiftDoneAddressWait
  /-- SHIFT_DONE in the state IdlePrep (R125) -/
  | shiftDoneIdlePrep
  /-- SHIFT_DONE in the state ReceiveByte (R126) -/
  | shiftDoneReceiveByte
  /-- SHIFT_DONE in the state ReceiveCheck (R127) -/
  | shiftDoneReceiveCheck
  /-- SHIFT_DONE in the state TransmitCheck (R129) -/
  | shiftDoneTransmitCheck
  /-- SHIFT_DONE in the state WaitAck (R131) -/
  | shiftDoneWaitAck
  /-- COMMIT, the transfer of the staged block into the active block (R181) -/
  | commit
  deriving DecidableEq, Repr

end Sys2Proof
end

