-- ==== Sys2Proof/WellFormed.lean ====
section
/-! DEFINITION. Which instructions the encoding admits. The only exclusions are those of the first data byte: PAYLOAD0 and
LOAD may not begin with a value that spec/30_encoding.md R62 gives another row. -/

namespace Sys2Proof

/-- The six opcode values that have a handler (spec/30_encoding.md R60, format CTRL). -/
def implementedOpcodes : List Byte := [0xA1#8, 0xA2#8, 0xA3#8, 0xA4#8, 0xA5#8, 0xB2#8]

/-- The three opcode values that are reserved (spec/30_encoding.md R66 (a)). -/
def reservedOpcodes : List Byte := [0xA6#8, 0xB1#8, 0xB3#8]

/-- The instruction is one the encoding admits. `payload0` takes the values R62 gives the class "payload" (the three reserved
values have rows of their own). `load` is legal when its first byte is no implemented opcode (R69, R66 (f)). -/
def Instr.wellFormed : Instr → Bool
  | .payload0 v => !implementedOpcodes.contains v && !reservedOpcodes.contains v
  | .load period _ _ _ _ _ => !implementedOpcodes.contains (period.extractLsb' 24 8)
  | .enable | .disable | .begin | .pause | .resume | .stop | .readPeriod | .readSteps | .readSettings => true
  | .payloadN _ | .addrW _ | .addrR _ | .controlByte _ _ _ _ | .read => true
  | .reset | .tick | .expire | .expireCarry | .expireStep | .start | .bit _ => true
  | .shiftDoneAddressWait | .shiftDoneIdlePrep | .shiftDoneReceiveByte => true
  | .shiftDoneReceiveCheck | .shiftDoneTransmitCheck | .shiftDoneWaitAck | .commit => true

end Sys2Proof
end

