-- ==== Sys2Proof/Decode.lean ====
section
/-! DEFINITION. The encodings of the wire (spec/30_encoding.md): the decoder, total on any bytes at any position of a
transaction, and after it the encoder, both written from the tables of R60 to R64. What a byte means depends on its position
alone (R60, R67): the address byte, the first data byte, a later payload byte, the control byte. -/

namespace Sys2Proof

/-! ### Fields -/

/-- The 7-bit address of an address byte, bits 7:1 (R61). -/
def addrField (b : Byte) : BitVec 7 := b.extractLsb' 1 7

/-- The R/W bit of an address byte, bit 0: true when the master reads (R61). -/
def rwField (b : Byte) : Bool := b.getLsbD 0

/-- The address byte of an address and an R/W bit (R61). -/
def addressByte (addr : BitVec 7) (rw : Bool) : Byte := addr ++ BitVec.ofBool rw

/-- `mode_index`, bits 1:0 of a control byte (R11). -/
def modeIndexField (c : Byte) : BitVec 2 := c.extractLsb' 0 2

/-- `direction`, bit 2 of a control byte: true for counter-clockwise (R11). -/
def directionField (c : Byte) : Bool := c.getLsbD 2

/-- `hold_position`, bit 3 of a control byte (R11). -/
def holdField (c : Byte) : Bool := c.getLsbD 3

/-- The reserved bits 7:4 of a control byte (R11, R66 (b)). -/
def reservedField (c : Byte) : BitVec 4 := c.extractLsb' 4 4

/-- A control byte from its fields (R11). -/
def controlByteOf (reserved : BitVec 4) (hold direction : Bool) (modeIndex : BitVec 2) : Byte :=
  reserved ++ BitVec.ofBool hold ++ BitVec.ofBool direction ++ modeIndex

/-- `be32`: the 32-bit number whose most significant byte is the first (spec/00_scope.md R8, spec/20_memory.md R44). -/
def be32 (b0 b1 b2 b3 : Byte) : Word := b0 ++ b1 ++ b2 ++ b3

/-- The four bytes of a 32-bit number, most significant first (spec/20_memory.md R44). -/
def be32Bytes (w : Word) : List Byte :=
  [w.extractLsb' 24 8, w.extractLsb' 16 8, w.extractLsb' 8 8, w.extractLsb' 0 8]

/-! ### Words of the wire -/

/-- Where in a transaction bytes stand (R60). -/
inductive Position where
  /-- byte 0: the address byte (R61) -/
  | address
  /-- byte 1 of a write: the opcode position (R62) -/
  | first
  /-- bytes 2 to 9 of a payload write, taken one by one (R63) -/
  | payload
  /-- payload byte 8 read by its fields (R64) -/
  | control
  /-- bytes 1 to 9 of a payload write taken together (R63) -/
  | block
  deriving DecidableEq, Repr

/-- What stands on the bus for an instruction. -/
inductive Wire where
  /-- nothing: the row is an event of width 0, or a byte the block itself sends -/
  | silent
  /-- one clock pulse with the level the other devices put on the data line (BIT) -/
  | pulse (level : Bool)
  /-- whole bytes at a position of a transaction -/
  | bytes (position : Position) (bs : List Byte)
  deriving DecidableEq, Repr

/-- Why the decoder refuses. -/
inductive DecodeError where
  /-- nothing stands on the bus, so nothing selects an instruction -/
  | noWord
  /-- fewer bytes than the position needs -/
  | truncated
  /-- the first byte of a payload block is an implemented opcode, so the block is that command and no payload (R214) -/
  | opcodeCollision
  deriving DecidableEq, Repr

/-! ### The decoder -/

/-- The readings of the first data byte of a write (R62, R150). -/
inductive FirstByte where
  | enable
  | disable
  | begin
  | pause
  | resume
  | stop
  | readPeriod
  | readSteps
  | readSettings
  | payload (v : Byte)
  deriving DecidableEq, Repr

/-- The opcode map of R62. -/
def firstByte (v : Byte) : FirstByte :=
  if v = 0xA1#8 then .enable
  else if v = 0xA2#8 then .disable
  else if v = 0xA3#8 then .begin
  else if v = 0xA4#8 then .pause
  else if v = 0xA5#8 then .resume
  else if v = 0xA6#8 then .stop
  else if v = 0xB1#8 then .readPeriod
  else if v = 0xB2#8 then .readSteps
  else if v = 0xB3#8 then .readSettings
  else .payload v

/-- The instruction a reading of the first data byte is. -/
def firstInstr : FirstByte → Instr
  | .enable => .enable
  | .disable => .disable
  | .begin => .begin
  | .pause => .pause
  | .resume => .resume
  | .stop => .stop
  | .readPeriod => .readPeriod
  | .readSteps => .readSteps
  | .readSettings => .readSettings
  | .payload v => .payload0 v

/-- A first byte that completes the write: the six opcodes with a handler (R67, R150). -/
def firstCompletes : FirstByte → Bool
  | .enable | .disable | .begin | .pause | .resume | .readSteps => true
  | .stop | .readPeriod | .readSettings | .payload _ => false

/-- The address byte read (R61). -/
def addressInstr (b : Byte) : Instr :=
  if rwField b then .addrR (addrField b) else .addrW (addrField b)

/-- Payload byte 8 read by its fields (R64). -/
def controlInstr (c : Byte) : Instr :=
  .controlByte (reservedField c) (holdField c) (directionField c) (modeIndexField c)

/-- The nine bytes of a payload block read (R63), or the opcode collision (R214). -/
def blockInstr (p3 p2 p1 p0 c3 c2 c1 c0 k : Byte) : Except DecodeError Instr :=
  if firstCompletes (firstByte p3) then .error .opcodeCollision
  else .ok (.load (be32 p3 p2 p1 p0) (be32 c3 c2 c1 c0) (reservedField k) (holdField k) (directionField k) (modeIndexField k))

/-- Bytes at a position: the instruction and the bytes left over, or a refusal by name. -/
def decodeBytes : Position → List Byte → Except DecodeError (Instr × List Byte)
  | .address, b :: rest => .ok (addressInstr b, rest)
  | .first, b :: rest => .ok (firstInstr (firstByte b), rest)
  | .payload, b :: rest => .ok (.payloadN b, rest)
  | .control, b :: rest => .ok (controlInstr b, rest)
  | .block, p3 :: p2 :: p1 :: p0 :: c3 :: c2 :: c1 :: c0 :: k :: rest =>
    match blockInstr p3 p2 p1 p0 c3 c2 c1 c0 k with
    | .ok i => .ok (i, rest)
    | .error e => .error e
  | _, _ => .error .truncated

/-- What stands on the bus: the instruction and the bytes left over, or a refusal by name. -/
def decodeWire : Wire → Except DecodeError (Instr × List Byte)
  | .silent => .error .noWord
  | .pulse level => .ok (.bit level, [])
  | .bytes position bs => decodeBytes position bs

/-- The bytes of an 8-bit or 72-bit row of spec/opcode_table.json, at the position the row has. An 8-bit word by itself does not
say where it stands: the rows that fix all 8 bits are taken first (the opcode position), every other byte is the address byte,
the first byte of every transaction. DESIGN CHOICE: log entry 3. Bit 71 of LOAD is the first on the wire. -/
def tableWire (nbits w : Nat) : Wire :=
  if nbits = 1 then .pulse (w.testBit 0)
  else if nbits = 8 then
    let b : Byte := BitVec.ofNat 8 w
    if implementedOpcodes.contains b || reservedOpcodes.contains b then .bytes .first [b] else .bytes .address [b]
  else if nbits = 72 then
    .bytes .block ([8, 7, 6, 5, 4, 3, 2, 1, 0].map fun k => BitVec.ofNat 8 (w >>> (8 * k)))
  else .silent

/-- The instruction the decoder reads from a word of the opcode table, numbered as the table numbers it. -/
def decodeTableWord (nbits w : Nat) : Option Instr :=
  match decodeWire (tableWire nbits w) with
  | .ok (i, []) => some i
  | .ok (_, _ :: _) => none
  | .error _ => none

/-! ### The encoder -/

/-- What an instruction puts on the bus: its words, from the tables of R60 to R64. READ is a byte the block sends, and the other
rows of the class "hardware event" have width 0. -/
def encode : Instr → Wire
  | .enable => .bytes .first [0xA1#8]
  | .disable => .bytes .first [0xA2#8]
  | .begin => .bytes .first [0xA3#8]
  | .pause => .bytes .first [0xA4#8]
  | .resume => .bytes .first [0xA5#8]
  | .stop => .bytes .first [0xA6#8]
  | .readPeriod => .bytes .first [0xB1#8]
  | .readSteps => .bytes .first [0xB2#8]
  | .readSettings => .bytes .first [0xB3#8]
  | .payload0 v => .bytes .first [v]
  | .payloadN v => .bytes .payload [v]
  | .addrW addr => .bytes .address [addressByte addr false]
  | .addrR addr => .bytes .address [addressByte addr true]
  | .controlByte reserved hold direction modeIndex =>
    .bytes .control [controlByteOf reserved hold direction modeIndex]
  | .load period stepCounter reserved hold direction modeIndex =>
    .bytes .block (be32Bytes period ++ be32Bytes stepCounter ++ [controlByteOf reserved hold direction modeIndex])
  | .bit m => .pulse m
  | .read | .reset | .tick | .expire | .expireCarry | .expireStep | .start => .silent
  | .shiftDoneAddressWait | .shiftDoneIdlePrep | .shiftDoneReceiveByte => .silent
  | .shiftDoneReceiveCheck | .shiftDoneTransmitCheck | .shiftDoneWaitAck | .commit => .silent

end Sys2Proof
end

