-- ==== Sys2Proof/Machine/State.lean ====
section
/-! DEFINITION. The state of the block as plain data: every register of spec/10_state.md R10 to R25, the staged byte space, and
the events the environment has still to deliver (the model's own field, log entry 1). -/

namespace Sys2Proof.Machine

/-- The four events the environment produces (spec/00_scope.md R5). -/
inductive Event where
  /-- `RESET`, the external reset input -/
  | reset
  /-- `TICK`, one period of the timer's tick clock -/
  | tick
  /-- `START`, an I2C start condition -/
  | start
  /-- `BIT(m)`, one clock pulse, `m` the level the other devices put on the data line -/
  | bit (m : Bool)
  deriving DecidableEq, Repr

/-- `STATE`, the protocol state of the I2C Transport Engine (R18). -/
inductive ProtoState where
  | idle
  | addressWait
  | idlePrep
  | receiveByte
  | receiveCheck
  | transmitCheck
  | waitAck
  deriving DecidableEq, Repr

/-- A command block: the triple of R10. -/
structure CommandBlock where
  /-- ticks per step -/
  period : Word
  /-- remaining step count -/
  stepCounter : Word
  /-- the control byte of R11 -/
  control : Byte
  deriving DecidableEq, Repr

/-- The space STG: its bytes by offset, offsets strictly rising, none listed whose byte is what an unlisted offset reads as
(log entry 26). -/
abbrev Memory := List Host.Cell

/-- What an unlisted offset of STG reads as: the reset contents, 0x00 (R29). -/
abbrev unlistedByte : Byte := 0x00#8

/-- Why the machine stops. Each is SAFE: the model stops where the spec gives no effect, or where no run can come. -/
inductive Fault where
  /-- Raised by TICK (and by nothing else) when the timer runs with a zero count: `raise Unspecified(U2)` of
  spec/40_stepping_engine.md R80. SAFE: the treatment spec/93_implementation_defined.md U2 names; log entry 20. -/
  | zeroTimerCount
  /-- Raised by BIT when a shift completes in the state Idle, which spec/42_i2c_framing.md R121 calls unreachable.
  SAFE; log entry 21. -/
  | shiftDoneInIdle
  /-- Raised by PAYLOADn, SHIFT_DONE in ReceiveCheck and BIT when RX_INDEX is 9 to 15, an offset STG does not have
  (spec/20_memory.md R42), which spec/10_state.md R27 (d) excludes from every run. SAFE; log entry 22. -/
  | stagedIndexOutOfRange
  deriving DecidableEq, Repr

/-- Why an instruction has no meaning. -/
inductive Refusal where
  /-- Raised by an arm of exec whose instruction has no meaning yet. SAFE. No arm of this model raises it. -/
  | notModelled (mnemonic : String)
  deriving DecidableEq, Repr

/-- The state of the block. -/
structure State where
  /-- `ACTIVE` (R10) -/
  active : CommandBlock
  /-- `STAGED_RAW`, the space STG (R12) -/
  staged : Memory
  /-- `ACC`, the period accumulator (R13) -/
  acc : Word
  /-- `T_RELOAD` (R14) -/
  tReload : BitVec 16
  /-- `T_CNT` (R14) -/
  tCnt : BitVec 16
  /-- `T_RUN` (R14) -/
  tRun : Bool
  /-- `PHASE`, bit 0 line A, bit 1 line A', bit 2 line B, bit 3 line B' (R15) -/
  phase : BitVec 4
  /-- `DRV_EN` (R16) -/
  drvEn : BitVec 2
  /-- `STATE` (R18) -/
  proto : ProtoState
  /-- `RX_INDEX` (R19) -/
  rxIndex : BitVec 4
  /-- `TX_INDEX` (R20) -/
  txIndex : BitVec 2
  /-- `RW` (R21) -/
  rw : Bool
  /-- `READ_EXPECTED` (R22) -/
  readExpected : Bool
  /-- `SR` (R23) -/
  sr : Byte
  /-- `BITCNT` (R24) -/
  bitcnt : BitVec 4
  /-- `OE` (R25) -/
  oe : Bool
  /-- the events still to be delivered, the next one first; the model's own field, not the spec's (log entry 1) -/
  inputs : List Event
  deriving DecidableEq, Repr

/-- The machine right after reset: every register at the value of R29, no event waiting. -/
def State.reset : State where
  active := { period := 0#32, stepCounter := 0#32, control := 0x00#8 }
  staged := []
  acc := 0#32
  tReload := 0#16
  tCnt := 0#16
  tRun := false
  phase := 0b0000#4
  drvEn := 0b00#2
  proto := .idle
  rxIndex := 0#4
  txIndex := 0#2
  rw := false
  readExpected := false
  sr := 0x00#8
  bitcnt := 0#4
  oe := false
  inputs := []

end Sys2Proof.Machine
end

