-- ==== Sys2Proof/Machine/Operands.lean ====
section
/-! DEFINITION. The operand forms: the three indexed spaces of spec/20_memory.md R40 (the phase ROM, the staged bytes STG, the
telemetry stream TLM), the views of the staged block, the fields of the control byte, the shifted-in bit. -/

namespace Sys2Proof.Machine

/-! ### ROM -/

/-- `MemRead(ROM, i, 1)`: the phase ROM (spec/10_state.md R17, spec/20_memory.md R41). UNVERIFIED: the bit order is decision D7
of the spec; log entry 10. -/
def phaseRom (i : BitVec 2) : BitVec 4 :=
  if i = 0#2 then 0b0101#4
  else if i = 1#2 then 0b0110#4
  else if i = 2#2 then 0b1010#4
  else 0b1001#4

/-! ### STG -/

/-- The byte at an offset of STG (spec/20_memory.md R42). -/
def Memory.read : Memory → Nat → Byte
  | [], _ => unlistedByte
  | (k, v) :: m, a => if a = k then v else Memory.read m a

/-- `STAGED_RAW[a] <- v` (spec/20_memory.md R42), keeping the canonical form: writing the unlisted byte takes the entry out. -/
def Memory.write : Memory → Nat → Byte → Memory
  | [], a, v => if v = unlistedByte then [] else [(a, v)]
  | (k, x) :: m, a, v =>
    if a < k then (if v = unlistedByte then (k, x) :: m else (a, v) :: (k, x) :: m)
    else if a = k then (if v = unlistedByte then m else (a, v) :: m)
    else (k, x) :: Memory.write m a v

/-- The canonical form: offsets strictly rising and inside STG's 0 to 8 (R42), no byte that an unlisted offset reads as. -/
def Memory.wf : Memory → Bool
  | [] => true
  | (k, v) :: m => decide (k < Config.stagedWidth) && v != unlistedByte && m.all (fun c => decide (k < c.1)) && Memory.wf m

/-- `STAGED.period` (spec/10_state.md R12). -/
def stagedPeriod (s : State) : Word :=
  be32 (s.staged.read 0) (s.staged.read 1) (s.staged.read 2) (s.staged.read 3)

/-- `STAGED.step_counter` (spec/10_state.md R12). -/
def stagedCount (s : State) : Word :=
  be32 (s.staged.read 4) (s.staged.read 5) (s.staged.read 6) (s.staged.read 7)

/-- `STAGED.control` (spec/10_state.md R12). -/
def stagedControl (s : State) : Byte := s.staged.read 8

/-! ### The control byte of the active block -/

/-- `ACTIVE.control[1:0]`, `mode_index` (spec/10_state.md R11). -/
def modeIndex (s : State) : BitVec 2 := modeIndexField s.active.control

/-- `ACTIVE.control[2]`, `direction`: true for counter-clockwise (spec/10_state.md R11). -/
def direction (s : State) : Bool := directionField s.active.control

/-- `ACTIVE.control[3]`, `hold_position` (spec/10_state.md R11). -/
def holdPosition (s : State) : Bool := holdField s.active.control

/-- A control byte whose bits 7:2 are those of `c` and whose bits 1:0 are `m`. -/
def withModeIndex (c : Byte) (m : BitVec 2) : Byte := c.extractLsb' 2 6 ++ m

/-! ### TLM -/

/-- The high byte of the counter under a choice of `TX_HIGH_SEL` (spec/20_memory.md R43). -/
def highByte (sel : Config.TxHighSel) (c : Word) : Byte :=
  match sel with
  | .msb32 => c.extractLsb' 24 8
  | .hi16 => c.extractLsb' 8 8

/-- `MemRead(TLM, i, 1)` with the counter `c` sampled at the access (spec/20_memory.md R43). -/
def telemetryByte (c : Word) (i : Nat) : Byte :=
  if i = 0 then highByte Config.txHighSel c
  else if i = 1 then c.extractLsb' 0 8
  else 0x00#8

/-! ### The shifter -/

/-- `{SR[6:0], b}` (spec/41_i2c_bit_layer.md R104). -/
def shiftedIn (sr : Byte) (b : Bool) : Byte := sr.extractLsb' 0 7 ++ BitVec.ofBool b

end Sys2Proof.Machine
end

