-- ==== Sys2Proof/Machine/Flags.lean ====
section
/-! DEFINITION. The tested conditions and the lines computed from the state. The block has no arithmetic flags; each condition
is computed where a rule tests it. -/

namespace Sys2Proof.Machine

/-- `SDA_PULL_LOW = OE AND NOT SR[7]` (spec/41_i2c_bit_layer.md R101). -/
def sdaPullLow (s : State) : Bool := s.oe && !s.sr.getLsbD 7

/-- The level on the data line during a clock pulse, `b = m AND NOT SDA_PULL_LOW` (spec/41_i2c_bit_layer.md R100). -/
def lineLevel (m : Bool) (s : State) : Bool := m && !sdaPullLow s

/-- `ACC > TIMER_MAX` (spec/40_stepping_engine.md R81). -/
def accExceedsTimer (s : State) : Bool := decide (Config.timerMax < s.acc.toNat)

/-- `ACTIVE.step_counter == 0` (spec/40_stepping_engine.md R87). -/
def motionComplete (s : State) : Bool := decide (s.active.stepCounter = 0#32)

/-- `STAGED.step_counter > 0` (spec/43_commands.md R153, spec/44_command_exchange.md R180). -/
def stagedReady (s : State) : Bool := stagedCount s != 0#32

/-- The comparison of an address with two addresses (spec/42_i2c_framing.md R122). -/
def matchesEither (own bcast addr : BitVec 7) : Bool := decide (addr = own) || decide (addr = bcast)

/-- `match` of spec/42_i2c_framing.md R122: the address is `OWN_ADDR` or `BCAST_ADDR`. -/
def addressMatches (addr : BitVec 7) : Bool := matchesEither Config.ownAddr Config.bcastAddr addr

/-- The master answered the last byte with NACK (spec/42_i2c_framing.md R129). -/
def masterNack (s : State) : Bool := s.txIndex != 0#2 && s.sr.getLsbD 0

end Sys2Proof.Machine
end

