-- ==== Sys2Proof/Machine/Ops.lean ====
section
/-! DEFINITION. The shared operations: the procedures the spec names, each once. No event of this hardware saves state or goes
to a vector (spec/60_exceptions.md R193, R194); the one operation of that kind is taking the external reset, `takeReset`, and
there is no return. -/

namespace Sys2Proof.Machine

/-! ### The reset -/

/-- The effect of `RESET`: every register at the value of spec/10_state.md R29 (spec/70_reset_and_hazards.md R211). The events
still to come are the environment's and stay (log entry 29). -/
def takeReset (s : State) : State := { State.reset with inputs := s.inputs }

/-! ### Setting up the next shift (spec/41_i2c_bit_layer.md R108) -/

/-- `send_ack()`: one bit, value 0. -/
def sendAck (s : State) : State := { s with sr := 0x00#8, oe := true, bitcnt := 1#4 }

/-- `send_nack()`: one bit, value 1. -/
def sendNack (s : State) : State := { s with sr := 0xFF#8, oe := true, bitcnt := 1#4 }

/-- `request(n)`: receive `n` bits; `SR` is not cleared. -/
def request (n : BitVec 4) (s : State) : State := { s with oe := false, bitcnt := n }

/-- `send_byte(v)`: send `v`, most significant bit first. -/
def sendByte (v : Byte) (s : State) : State := { s with sr := v, oe := true, bitcnt := 8#4 }

/-- `STATE <- p`. -/
def goTo (p : ProtoState) (s : State) : State := { s with proto := p }

/-- `end_session()` (spec/42_i2c_framing.md R132). UNVERIFIED: where the indices are cleared is decision D13; log entry 16. -/
def endSession (s : State) : State :=
  { s with oe := false, rw := false, rxIndex := 0#4, txIndex := 0#2, proto := .idle }

/-! ### The timer and the Stepping Engine (spec/40_stepping_engine.md) -/

/-- `arm_immediate()` (R89). UNVERIFIED: decision D3; log entry 8. -/
def armImmediate (s : State) : State := { s with tReload := 1#16, tCnt := 1#16, tRun := true }

/-- `T_CNT <- T_CNT -16 1` (R80). -/
def countDown (s : State) : State := { s with tCnt := s.tCnt - 1#16 }

/-- `carry()` (R82). -/
def carry (s : State) : State :=
  { s with
    tReload := BitVec.ofNat 16 Config.timerMax
    tCnt := BitVec.ofNat 16 Config.timerMax
    acc := s.acc - BitVec.ofNat 32 Config.timerMax }

/-- `reload_final()` (R83). -/
def reloadFinal (s : State) : State :=
  { s with tReload := s.acc.extractLsb' 0 16, tCnt := s.acc.extractLsb' 0 16, acc := s.active.period }

/-- `phase_out()` (R84). UNVERIFIED: the clear and the assert are one write, decision D8; log entry 11. -/
def phaseOut (s : State) : State := { s with phase := phaseRom (modeIndex s) }

/-- The index one step on in the direction of travel, modulo 4 (R85). -/
def nextModeIndex (ccw : Bool) (m : BitVec 2) : BitVec 2 := if ccw then m + 1#2 else m - 1#2

/-- `advance()` (R85): bits 7:2 of `ACTIVE.control` are not touched. -/
def advance (s : State) : State :=
  let turned := withModeIndex s.active.control (nextModeIndex (direction s) (modeIndex s))
  { s with active := { s.active with control := turned } }

/-- `decrement()` (R86). UNVERIFIED: a zero count wraps, decision D9; log entry 12. -/
def decrement (s : State) : State :=
  { s with active := { s.active with stepCounter := s.active.stepCounter - 1#32 } }

/-- `complete()` (R87). UNVERIFIED: with hold the lines are left as they are, decision D10; log entry 13. -/
def complete (s : State) : State :=
  if motionComplete s then
    { s with tRun := false, drvEn := if holdPosition s then s.drvEn else 0b00#2 }
  else s

/-- `step()` (R83): the five actions in the order of the rule. -/
def stepMotor (s : State) : State := complete (decrement (advance (phaseOut (reloadFinal s))))

/-- `EXPIRE` (R81). UNVERIFIED: which expiry steps is decision D5; log entry 9. -/
def expireTimer (s : State) : State := if accExceedsTimer s then carry s else stepMotor s

/-! ### The Command Exchange (spec/44_command_exchange.md) -/

/-- `commit()` (R181): `mode_index` is kept, the staged block is zeroed (R183). -/
def commitStaged (s : State) : State :=
  { s with
    active :=
      { period := stagedPeriod s
        stepCounter := stagedCount s
        control := withModeIndex (stagedControl s) (modeIndex s) }
    staged := [] }

/-- `ACC <- ACTIVE.period` (spec/43_commands.md R153). -/
def rearmAcc (s : State) : State := { s with acc := s.active.period }

/-! ### The staged bytes (spec/42_i2c_framing.md R128, spec/43_commands.md R160) -/

/-- `MemWrite(STG, i, 1, v)` (spec/20_memory.md R42) at an offset STG has. -/
def stage (i : Nat) (v : Byte) (s : State) : State := { s with staged := s.staged.write i v }

/-- `PAYLOAD0(v)` (R160). With `RX_INDEX` not 0, outside the rule's precondition, it does the same. DESIGN CHOICE: log entry 31. -/
def storeFirst (v : Byte) (s : State) : State := { stage 0 v s with rxIndex := 1#4 }

/-- `store_payload(v)` returns true: this is the ninth byte (R128). -/
def payloadCompletes (s : State) : Bool := decide (s.rxIndex = 8#4)

/-- `store_payload(v)` (R128). Outside the rule's precondition `1 <= RX_INDEX <= 8`: with `RX_INDEX` 0 it stores at offset 0 and moves
`RX_INDEX` on to 1 (DESIGN CHOICE: log entry 31), and an offset STG does not have faults (log entry 22). -/
def storePayload (v : Byte) (s : State) : Host.Outcome State Fault Refusal :=
  if Config.stagedWidth ≤ s.rxIndex.toNat then .fault .stagedIndexOutOfRange
  else if payloadCompletes s then .next (stage 8 v s)
  else .next { stage s.rxIndex.toNat v s with rxIndex := s.rxIndex + 1#4 }

/-- Payload bytes after the first, in order (R128, R63). -/
def storePayloads : List Byte → State → Host.Outcome State Fault Refusal
  | [], s => .next s
  | v :: vs, s =>
    match storePayload v s with
    | .next t => storePayloads vs t
    | .fault f => .fault f
    | .refused r => .refused r

/-! ### The address decision (spec/42_i2c_framing.md) -/

/-- The read is honoured: it was asked for and READ_STEPS armed it (R123). -/
def readHonoured (rw : Bool) (s : State) : Bool := rw && s.readExpected

/-- `address_match()` (R123). UNVERIFIED: an un-armed read is handled as a write, decision D15; log entry 17. -/
def addressMatch (rw : Bool) (s : State) : State :=
  if readHonoured rw s then sendAck { s with rw := true, readExpected := false, proto := .transmitCheck }
  else sendAck { s with rw := false, proto := .receiveByte }

/-- `address_mismatch()` (R124). -/
def addressMismatch (s : State) : State := goTo .idlePrep (sendNack s)

/-- The decision on an address byte (R122). -/
def addressDecide (addr : BitVec 7) (rw : Bool) (s : State) : State :=
  if addressMatches addr then addressMatch rw s else addressMismatch s

/-! ### Transmission (spec/42_i2c_framing.md) -/

/-- `TX_INDEX` one on, staying at 2 (R130, spec/10_state.md R20). -/
def nextTxIndex (i : BitVec 2) : BitVec 2 := if i.toNat < 2 then i + 1#2 else i

/-- `transmit_byte()` (R130): the byte samples the live counter (spec/20_memory.md R53). -/
def transmitByte (s : State) : State :=
  goTo .waitAck
    { sendByte (telemetryByte s.active.stepCounter s.txIndex.toNat) s with txIndex := nextTxIndex s.txIndex }

/-! ### The bit layer (spec/41_i2c_bit_layer.md) -/

/-- The shift of one bit (R104). -/
def shiftBit (m : Bool) (s : State) : State :=
  { s with sr := shiftedIn s.sr (lineLevel m s), bitcnt := s.bitcnt - 1#4 }

/-- `START` (R103). UNVERIFIED: decision D13; log entry 16. -/
def startSession (s : State) : State :=
  { s with oe := false, bitcnt := 8#4, rxIndex := 0#4, txIndex := 0#2, rw := false, proto := .addressWait }

/-- The end of ReceiveCheck: always an ACK, then on or done (spec/42_i2c_framing.md R127). -/
def acknowledge (done : Bool) (s : State) : State :=
  goTo (if done then .idlePrep else .receiveByte) (sendAck s)

end Sys2Proof.Machine
end

