-- ==== Sys2Proof/Machine/Commands.lean ====
section
/-! DEFINITION. The wire commands (spec/43_commands.md): the values of the first data byte of a write. -/

namespace Sys2Proof.Machine

/-! ### The effects -/

/-- `ENABLE()` (R151). -/
def enableDriver (s : State) : State := { s with drvEn := 0b11#2 }

/-- `DISABLE()` (R152). -/
def disableDriver (s : State) : State := { s with drvEn := 0b00#2 }

/-- `BEGIN()` (R153): commit, re-arm the accumulator, force an expiry; with a zero staged count, nothing at all (R184). -/
def beginMotion (s : State) : State :=
  if stagedReady s then armImmediate (rearmAcc (commitStaged s)) else s

/-- `PAUSE()` (R154). -/
def pauseMotion (s : State) : State := { s with tRun := false }

/-- `RESUME()` (R155): `ACC` is not written. UNVERIFIED: decision D11; log entry 14. -/
def resumeMotion (s : State) : State := armImmediate s

/-- `READ_STEPS()` (R158). -/
def armRead (s : State) : State := { s with readExpected := true }

/-! ### The meanings -/

/-- ENABLE (R151). -/
def execEnable (s : State) : Host.Outcome State Fault Refusal := .next (enableDriver s)

/-- DISABLE (R152). -/
def execDisable (s : State) : Host.Outcome State Fault Refusal := .next (disableDriver s)

/-- BEGIN (R153). -/
def execBegin (s : State) : Host.Outcome State Fault Refusal := .next (beginMotion s)

/-- PAUSE (R154). -/
def execPause (s : State) : Host.Outcome State Fault Refusal := .next (pauseMotion s)

/-- RESUME (R155). -/
def execResume (s : State) : Host.Outcome State Fault Refusal := .next (resumeMotion s)

/-- STOP (R156): no handler, stored as payload byte 0 (R160). UNVERIFIED: decision D20, U1; log entry 19. -/
def execStop (s : State) : Host.Outcome State Fault Refusal := .next (storeFirst 0xA6#8 s)

/-- READ_PERIOD (R157): no handler, stored as payload byte 0 (R160). UNVERIFIED: decision D20, U1; log entry 19. -/
def execReadPeriod (s : State) : Host.Outcome State Fault Refusal := .next (storeFirst 0xB1#8 s)

/-- READ_STEPS (R158). -/
def execReadSteps (s : State) : Host.Outcome State Fault Refusal := .next (armRead s)

/-- READ_SETTINGS (R159): no handler, stored as payload byte 0 (R160). UNVERIFIED: decision D20, U1; log entry 19. -/
def execReadSettings (s : State) : Host.Outcome State Fault Refusal := .next (storeFirst 0xB3#8 s)

/-- PAYLOAD0 (R160). -/
def execPayload0 (v : Byte) (s : State) : Host.Outcome State Fault Refusal := .next (storeFirst v s)

/-! ### The dispatch on the first data byte -/

/-- What the first data byte does (R150, its `case`). -/
def firstEffect : FirstByte → State → State
  | .enable, s => enableDriver s
  | .disable, s => disableDriver s
  | .begin, s => beginMotion s
  | .pause, s => pauseMotion s
  | .resume, s => resumeMotion s
  | .stop, s => storeFirst 0xA6#8 s
  | .readPeriod, s => storeFirst 0xB1#8 s
  | .readSteps, s => armRead s
  | .readSettings, s => storeFirst 0xB3#8 s
  | .payload v, s => storeFirst v s

end Sys2Proof.Machine
end

