-- ==== Sys2Proof/Machine/Framing.lean ====
section
/-! DEFINITION. The I2C protocol state machine (spec/42_i2c_framing.md): payload bytes, address bytes, the response byte, and
SHIFT_DONE in each state. -/

namespace Sys2Proof.Machine

/-! ### Payload -/

/-- PAYLOADn (R128). -/
def execPayloadN (v : Byte) (s : State) : Host.Outcome State Fault Refusal := storePayload v s

/-- CONTROL_BYTE (spec/30_encoding.md R64): payload byte 8, stored whatever it is at offset 8 (R128; log entry 25). -/
def execControlByte (reserved : BitVec 4) (hold ccw : Bool) (mode : BitVec 2) (s : State) :
    Host.Outcome State Fault Refusal :=
  .next (stage 8 (controlByteOf reserved hold ccw mode) s)

/-- LOAD (spec/30_encoding.md R63): the first byte is taken as R150 takes it, and if it does not complete the write the eight
others follow as R128 stores them. A first byte that is an implemented opcode is that command and the rest is dropped
(spec/70_reset_and_hazards.md R214; log entry 25). -/
def execLoad (period stepCounter : Word) (reserved : BitVec 4) (hold ccw : Bool) (mode : BitVec 2) (s : State) :
    Host.Outcome State Fault Refusal :=
  let first := firstByte (period.extractLsb' 24 8)
  if firstCompletes first then .next (firstEffect first s)
  else
    storePayloads
      ((be32Bytes period).tail ++ be32Bytes stepCounter ++ [controlByteOf reserved hold ccw mode])
      (firstEffect first s)

/-! ### The address byte -/

/-- ADDR_W (R122 with R/W = 0). R122 decides in AddressWait; run on its own the row decides in every `STATE`. DESIGN CHOICE: log
entry 32. -/
def execAddrW (addr : BitVec 7) (s : State) : Host.Outcome State Fault Refusal := .next (addressDecide addr false s)

/-- ADDR_R (R122 with R/W = 1). R122 decides in AddressWait; run on its own the row decides in every `STATE`. DESIGN CHOICE: log
entry 32. -/
def execAddrR (addr : BitVec 7) (s : State) : Host.Outcome State Fault Refusal := .next (addressDecide addr true s)

/-! ### The response -/

/-- READ (R130): the block sends the next byte of the telemetry stream. -/
def execRead (s : State) : Host.Outcome State Fault Refusal := .next (transmitByte s)

/-! ### SHIFT_DONE -/

/-- SHIFT_DONE in AddressWait (R122): the address byte stands in `SR`. -/
def execShiftDoneAddressWait (s : State) : Host.Outcome State Fault Refusal :=
  .next (addressDecide (addrField s.sr) (rwField s.sr) s)

/-- SHIFT_DONE in IdlePrep (R125). -/
def execShiftDoneIdlePrep (s : State) : Host.Outcome State Fault Refusal := .next (endSession s)

/-- SHIFT_DONE in ReceiveByte (R126). -/
def execShiftDoneReceiveByte (s : State) : Host.Outcome State Fault Refusal :=
  .next (goTo .receiveCheck (request 8#4 s))

/-- SHIFT_DONE in ReceiveCheck (R127): the data byte stands in `SR`; at `RX_INDEX` 0 it is decoded (R150), later it is stored
(R128). -/
def execShiftDoneReceiveCheck (s : State) : Host.Outcome State Fault Refusal :=
  if s.rxIndex = 0#4 then
    .next (acknowledge (firstCompletes (firstByte s.sr)) (firstEffect (firstByte s.sr) s))
  else
    match storePayload s.sr s with
    | .next t => .next (acknowledge (payloadCompletes s) t)
    | .fault f => .fault f
    | .refused r => .refused r

/-- SHIFT_DONE in TransmitCheck (R129). -/
def execShiftDoneTransmitCheck (s : State) : Host.Outcome State Fault Refusal :=
  .next (if masterNack s then endSession s else transmitByte s)

/-- SHIFT_DONE in WaitAck (R131). -/
def execShiftDoneWaitAck (s : State) : Host.Outcome State Fault Refusal :=
  .next (goTo .transmitCheck (request 1#4 s))

/-- SHIFT_DONE, dispatched on `STATE` (R120). In Idle it cannot occur (R121); log entry 21. -/
def shiftDone (s : State) : Host.Outcome State Fault Refusal :=
  match s.proto with
  | .idle => .fault .shiftDoneInIdle
  | .addressWait => execShiftDoneAddressWait s
  | .idlePrep => execShiftDoneIdlePrep s
  | .receiveByte => execShiftDoneReceiveByte s
  | .receiveCheck => execShiftDoneReceiveCheck s
  | .transmitCheck => execShiftDoneTransmitCheck s
  | .waitAck => execShiftDoneWaitAck s

end Sys2Proof.Machine
end

