-- ==== Sys2Proof/Machine/BitLayer.lean ====
section
/-! DEFINITION. The external events of the bus and the reset: RESET (spec/70_reset_and_hazards.md R211), START and BIT
(spec/41_i2c_bit_layer.md R103, R104). -/

namespace Sys2Proof.Machine

/-- RESET (R211). -/
def execReset (s : State) : Host.Outcome State Fault Refusal := .next (takeReset s)

/-- START (R103), in every state. -/
def execStart (s : State) : Host.Outcome State Fault Refusal := .next (startSession s)

/-- BIT (R104): with `BITCNT` 0 the pulse is ignored; the shift that brings it to 0 raises SHIFT_DONE (R105). -/
def execBit (m : Bool) (s : State) : Host.Outcome State Fault Refusal :=
  if s.bitcnt = 0#4 then .next s
  else if (shiftBit m s).bitcnt = 0#4 then shiftDone (shiftBit m s)
  else .next (shiftBit m s)

end Sys2Proof.Machine
end

