-- ==== Sys2Proof/Machine/Exchange.lean ====
section
/-! DEFINITION. The Command Exchange: the meaning of COMMIT (spec/44_command_exchange.md). -/

namespace Sys2Proof.Machine

/-- COMMIT (R181). With a zero staged count the commit is not performed and nothing changes (R184; log entry 23). -/
def execCommit (s : State) : Host.Outcome State Fault Refusal :=
  .next (if stagedReady s then commitStaged s else s)

end Sys2Proof.Machine
end

