-- ==== Sys2Proof/Machine/Stepping.lean ====
section
/-! DEFINITION. The Stepping Engine (spec/40_stepping_engine.md): TICK and the expiry it raises. -/

namespace Sys2Proof.Machine

/-- TICK (R80). A running timer with a zero count is `raise Unspecified(U2)`: a fault (log entry 20). -/
def execTick (s : State) : Host.Outcome State Fault Refusal :=
  if s.tRun then
    if s.tCnt = 0#16 then .fault .zeroTimerCount
    else if (countDown s).tCnt = 0#16 then .next (expireTimer (countDown s))
    else .next (countDown s)
  else .next s

/-- EXPIRE (R81). -/
def execExpire (s : State) : Host.Outcome State Fault Refusal := .next (expireTimer s)

/-- EXPIRE.carry (R82). -/
def execExpireCarry (s : State) : Host.Outcome State Fault Refusal := .next (carry s)

/-- EXPIRE.step (R83). -/
def execExpireStep (s : State) : Host.Outcome State Fault Refusal := .next (stepMotor s)

end Sys2Proof.Machine
end

