-- ==== Sys2Proof/Machine/Dispatch.lean ====
section
/-! DEFINITION. The dispatch of the instructions to their meanings, one arm per row of spec/opcode_table.json. -/

namespace Sys2Proof.Machine

def exec (i : Instr) (s : State) : Host.Outcome State Fault Refusal :=
  match i with
  | .enable => Sys2Proof.Machine.execEnable s
  | .disable => Sys2Proof.Machine.execDisable s
  | .begin => Sys2Proof.Machine.execBegin s
  | .pause => Sys2Proof.Machine.execPause s
  | .resume => Sys2Proof.Machine.execResume s
  | .stop => Sys2Proof.Machine.execStop s
  | .readPeriod => Sys2Proof.Machine.execReadPeriod s
  | .readSteps => Sys2Proof.Machine.execReadSteps s
  | .readSettings => Sys2Proof.Machine.execReadSettings s
  | .payload0 v => Sys2Proof.Machine.execPayload0 v s
  | .payloadN v => Sys2Proof.Machine.execPayloadN v s
  | .addrW addr => Sys2Proof.Machine.execAddrW addr s
  | .addrR addr => Sys2Proof.Machine.execAddrR addr s
  | .controlByte reserved hold ccw mode => Sys2Proof.Machine.execControlByte reserved hold ccw mode s
  | .load period count reserved hold ccw mode => Sys2Proof.Machine.execLoad period count reserved hold ccw mode s
  | .read => Sys2Proof.Machine.execRead s
  | .reset => Sys2Proof.Machine.execReset s
  | .tick => Sys2Proof.Machine.execTick s
  | .expire => Sys2Proof.Machine.execExpire s
  | .expireCarry => Sys2Proof.Machine.execExpireCarry s
  | .expireStep => Sys2Proof.Machine.execExpireStep s
  | .start => Sys2Proof.Machine.execStart s
  | .bit m => Sys2Proof.Machine.execBit m s
  | .shiftDoneAddressWait => Sys2Proof.Machine.execShiftDoneAddressWait s
  | .shiftDoneIdlePrep => Sys2Proof.Machine.execShiftDoneIdlePrep s
  | .shiftDoneReceiveByte => Sys2Proof.Machine.execShiftDoneReceiveByte s
  | .shiftDoneReceiveCheck => Sys2Proof.Machine.execShiftDoneReceiveCheck s
  | .shiftDoneTransmitCheck => Sys2Proof.Machine.execShiftDoneTransmitCheck s
  | .shiftDoneWaitAck => Sys2Proof.Machine.execShiftDoneWaitAck s
  | .commit => Sys2Proof.Machine.execCommit s

end Sys2Proof.Machine
end

