-- ==== Sys2Proof/Machine/Fetch.lean ====
section
/-! DEFINITION. What comes from outside: which instruction an event of the environment is, the instruction a clock pulse is about
to complete on the wire, and how a word of the opcode table is put in front of the machine (log entries 1 to 3). -/

namespace Sys2Proof.Machine

/-- The row of the opcode table an event of the environment is (spec/00_scope.md R5). -/
def eventInstr : Event → Instr
  | .reset => .reset
  | .tick => .tick
  | .start => .start
  | .bit m => .bit m

/-- The state without the event about to be taken. -/
def popInput (s : State) : State := { s with inputs := s.inputs.tail }

/-- The byte the engine is waiting for stands at this position of the transaction; `none` when it is not receiving a byte
(spec/42_i2c_framing.md R120, spec/30_encoding.md R60). -/
def receivePosition (s : State) : Option Position :=
  match s.proto with
  | .addressWait => some .address
  | .receiveCheck => some (if s.rxIndex = 0#4 then .first else .payload)
  | .idle | .idlePrep | .receiveByte | .transmitCheck | .waitAck => none

/-- The wire instruction that a clock pulse completes: the last bit of a byte is about to arrive, and the whole byte decodes to
it at its position. `none` when the pulse completes no byte of the master's. -/
def completedInstr (m : Bool) (s : State) : Option Instr :=
  if s.bitcnt = 1#4 then
    match receivePosition s with
    | none => none
    | some p =>
      match decodeBytes p [(shiftBit m s).sr] with
      | .ok (i, _) => some i
      | .error _ => none
  else none

/-- All bits of `b` but the last have arrived; the last is the next event. -/
def awaitLastBit (b : Byte) (s : State) : State :=
  { s with
    sr := b >>> 1
    bitcnt := 1#4
    oe := false
    inputs := .bit (b.getLsbD 0) :: s.inputs }

/-- Bytes stored at the offsets of STG from `i` up. -/
def stageFrom : Nat → List Byte → State → State
  | _, [], s => s
  | i, b :: bs, s => stageFrom (i + 1) bs (stage i b s)

/-- Put what stands on the wire in front of the machine, so that the next step completes it (log entry 2). -/
def placeWire : Wire → State → State
  | .silent, s => s
  | .pulse level, s => { s with inputs := .bit level :: s.inputs }
  | .bytes .address [b], s => awaitLastBit b (goTo .addressWait s)
  | .bytes .first [b], s => awaitLastBit b (goTo .receiveCheck { s with rxIndex := 0#4 })
  | .bytes .payload [b], s => awaitLastBit b (goTo .receiveCheck s)
  | .bytes .control [b], s => awaitLastBit b (goTo .receiveCheck { s with rxIndex := 8#4 })
  | .bytes .block [p3, p2, p1, p0, c3, c2, c1, c0, k], s =>
    awaitLastBit k (goTo .receiveCheck { stageFrom 0 [p3, p2, p1, p0, c3, c2, c1, c0] s with rxIndex := 8#4 })
  | .bytes _ _, s => s

end Sys2Proof.Machine
end

