-- ==== Sys2Proof/Machine/Step.lean ====
section
/-! DEFINITION. One step: the machine takes the next event of the environment, and with none left nothing changes
(spec/00_scope.md R5: "between two events no state changes"). -/

namespace Sys2Proof.Machine

/-- One atomic transition (R5). -/
def step (s : State) : Host.Outcome State Fault Refusal :=
  match s.inputs with
  | [] => .next s
  | e :: _ => exec (eventInstr e) (popInput s)

/-- `s` with the word `w` of `nbits` bits, numbered as spec/opcode_table.json numbers it, in front of the machine: every bit but
its last has been received and the last is the next event (log entry 2). -/
def State.withFetchWord (s : State) (nbits w : Nat) : State := placeWire (tableWire nbits w) s

end Sys2Proof.Machine
end

