-- ==== Sys2Proof/Machine/Wire.lean ====
section
/-! DEFINITION. The notation of spec/30_encoding.md R69: what a master does on the bus, item by item, and the events it stands
for; runs of events; what the master sees on the data line. -/

namespace Sys2Proof.Machine

/-- An item of the notation (R69). -/
inductive Item where
  /-- `S`, a start condition -/
  | startCond
  /-- `P`, a stop condition: no event (spec/41_i2c_bit_layer.md R106) -/
  | stopCond
  /-- `W(a)` -/
  | writeTo (addr : BitVec 7)
  /-- `R(a)` -/
  | readFrom (addr : BitVec 7)
  /-- `xx`, a data byte -/
  | data (v : Byte)
  /-- `?A`, clock a byte with the line released, then ACK -/
  | clockAck
  /-- `?N`, clock a byte with the line released, then NACK -/
  | clockNack
  /-- `T(n)` -/
  | ticks (n : Nat)
  deriving DecidableEq, Repr

/-- The bits of a byte as levels, most significant first (spec/20_memory.md R45). -/
def byteLevels (b : Byte) : List Bool :=
  [b.getLsbD 7, b.getLsbD 6, b.getLsbD 5, b.getLsbD 4, b.getLsbD 3, b.getLsbD 2, b.getLsbD 1, b.getLsbD 0]

/-- Clock pulses with these levels. -/
def pulses (levels : List Bool) : List Event := levels.map .bit

/-- A byte sent by the master, then one acknowledge clock in which it releases the line (R69; log entry 30). -/
def sentByte (b : Byte) : List Event := pulses (byteLevels b ++ [true])

/-- The events an item stands for (R69). -/
def itemEvents : Item → List Event
  | .startCond => [.start]
  | .stopCond => []
  | .writeTo a => sentByte (addressByte a false)
  | .readFrom a => sentByte (addressByte a true)
  | .data v => sentByte v
  | .clockAck => pulses (List.replicate 8 true ++ [false])
  | .clockNack => pulses (List.replicate 8 true ++ [true])
  | .ticks n => List.replicate n .tick

/-- The events of a sequence of items. -/
def itemsEvents (items : List Item) : List Event := items.flatMap itemEvents

/-- A one-byte command to the address `a`: `S W(a) op P`. -/
def commandTransaction (a : BitVec 7) (op : Byte) : List Item := [.startCond, .writeTo a, .data op, .stopCond]

/-- `LOAD period, count, control` to the address `a`. -/
def loadTransaction (a : BitVec 7) (period count : Word) (control : Byte) : List Item :=
  [.startCond, .writeTo a] ++ (be32Bytes period ++ be32Bytes count ++ [control]).map .data ++ [.stopCond]

/-- `READ n` from the address `a`, `n` at least 1. -/
def readTransaction (a : BitVec 7) (n : Nat) : List Item :=
  [.startCond, .readFrom a] ++ List.replicate (n - 1) .clockAck ++ [.clockNack, .stopCond]

/-- The pseudo-command `MOVE`: LOAD, then BEGIN. -/
def moveTransaction (a : BitVec 7) (period count : Word) (control : Byte) : List Item :=
  loadTransaction a period count control ++ commandTransaction a 0xA3#8

/-- The pseudo-command `GET_STEPS`: READ_STEPS, then a read of two bytes. -/
def getStepsTransaction (a : BitVec 7) : List Item := commandTransaction a 0xB2#8 ++ readTransaction a 2

/-- The events taken one after another, each as the instruction it is, stopping at the first fault or refusal. -/
def runEvents : List Event → State → Host.Outcome State Fault Refusal
  | [], s => .next s
  | e :: es, s =>
    match exec (eventInstr e) s with
    | .next t => runEvents es t
    | .fault f => .fault f
    | .refused r => .refused r

/-- `n` ticks. -/
def runTicks (n : Nat) (s : State) : Host.Outcome State Fault Refusal := runEvents (List.replicate n .tick) s

/-- The levels on the data line during the clock pulses of the events, as the master sees them (spec/41_i2c_bit_layer.md R100). -/
def seenLevels : List Event → State → List Bool
  | [], _ => []
  | e :: es, s =>
    let here := match e with
      | .bit m => [lineLevel m s]
      | .reset | .tick | .start => []
    match exec (eventInstr e) s with
    | .next t => here ++ seenLevels es t
    | .fault _ => here
    | .refused _ => here

end Sys2Proof.Machine
end

