-- ==== Sys2Proof/Safety.lean ====
section
/-! DEFINITION. What counts as a safe run: the invariants of spec/10_state.md R27 and of the timer, and the master's hazards that
spec/93_implementation_defined.md marks U1, U2, U4 and U9. -/

namespace Sys2Proof.Machine

/-! ### The bus session (spec/10_state.md R27 (b), (c), (d), (f)) -/

/-- The shift that is outstanding in each protocol state, as the table of spec/42_i2c_framing.md R120 gives it, with the direction
and the indices that go with it. -/
def shiftFits (s : State) : Bool :=
  match s.proto with
  | .idle => decide (s.bitcnt = 0#4 ∧ s.oe = false ∧ s.rw = false ∧ s.rxIndex = 0#4 ∧ s.txIndex = 0#2)
  | .addressWait => decide (s.bitcnt ≠ 0#4 ∧ s.oe = false ∧ s.rw = false ∧ s.rxIndex = 0#4 ∧ s.txIndex = 0#2)
  | .idlePrep => decide (s.bitcnt = 1#4 ∧ s.oe = true ∧ s.rw = false ∧ s.txIndex = 0#2)
  | .receiveByte => decide (s.bitcnt = 1#4 ∧ s.oe = true ∧ s.rw = false ∧ s.txIndex = 0#2)
  | .receiveCheck => decide (s.bitcnt ≠ 0#4 ∧ s.oe = false ∧ s.rw = false ∧ s.txIndex = 0#2)
  | .transmitCheck =>
    decide (s.bitcnt = 1#4 ∧ s.oe = decide (s.txIndex = 0#2) ∧ s.rw = true ∧ s.rxIndex = 0#4)
  | .waitAck => decide (s.bitcnt ≠ 0#4 ∧ s.oe = true ∧ s.rw = true ∧ s.txIndex ≠ 0#2 ∧ s.rxIndex = 0#4)

/-- The session registers stay inside the values R19, R20 and R24 give them and fit the protocol state. -/
abbrev SessionInv (s : State) : Prop :=
  shiftFits s = true ∧ s.bitcnt.toNat ≤ 8 ∧ s.rxIndex.toNat ≤ 8 ∧ s.txIndex.toNat ≤ 2 ∧ (s.oe = true → s.bitcnt ≠ 0#4)

/-! ### The timer -/

/-- A running timer has a zero count only with a zero period (spec/40_stepping_engine.md R80); the accumulator is what is left of
the period after whole segments of `TIMER_MAX` (R82, R83), and is zero only with a zero period. -/
abbrev TimerInv (s : State) : Prop :=
  (s.tRun = true → s.tCnt = 0#16 → s.active.period = 0#32) ∧
  s.acc.toNat ≤ s.active.period.toNat ∧
  (s.active.period.toNat - s.acc.toNat) % Config.timerMax = 0 ∧
  (s.acc = 0#32 → s.active.period = 0#32)

/-! ### The outputs and the staged bytes -/

/-- Both driver-enable lines are equal (spec/10_state.md R16, R27 (e)), and the phase lines carry a pattern of the ROM, or none
before the first step (R17, R29). -/
abbrev OutputInv (s : State) : Prop :=
  (s.drvEn = 0b00#2 ∨ s.drvEn = 0b11#2) ∧
  (s.phase = 0b0000#4 ∨ s.phase = 0b0101#4 ∨ s.phase = 0b0110#4 ∨ s.phase = 0b1010#4 ∨ s.phase = 0b1001#4)

/-- The staged bytes are in canonical form (log entry 26). -/
abbrev StagedInv (s : State) : Prop := Memory.wf s.staged = true

/-- All of it. -/
abbrev State.Inv (s : State) : Prop := SessionInv s ∧ TimerInv s ∧ OutputInv s ∧ StagedInv s

/-! ### Hazards of the master -/

/-- What a careful master never does. -/
inductive Hazard where
  /-- U1: a reserved value as the first data byte -/
  | reservedOpcode
  /-- U2: a BEGIN that commits a zero period -/
  | zeroPeriod
  /-- U4: a RESUME with a zero step count -/
  | resumeAtZero
  /-- U9: a read that READ_STEPS did not arm -/
  | unarmedRead
  deriving DecidableEq, Repr

/-- The hazard an instruction is in a state. -/
def instrHazard (i : Instr) (s : State) : Option Hazard :=
  match i with
  | .stop | .readPeriod | .readSettings => some .reservedOpcode
  | .begin => if stagedReady s && decide (stagedPeriod s = 0#32) then some .zeroPeriod else none
  | .resume => if motionComplete s then some .resumeAtZero else none
  | .addrR addr => if addressMatches addr && !s.readExpected then some .unarmedRead else none
  | .enable | .disable | .pause | .readSteps | .payload0 _ | .payloadN _ | .addrW _ => none
  | .controlByte _ _ _ _ | .load _ _ _ _ _ _ | .read | .reset | .tick | .expire | .expireCarry | .expireStep => none
  | .start | .bit _ | .shiftDoneAddressWait | .shiftDoneIdlePrep | .shiftDoneReceiveByte => none
  | .shiftDoneReceiveCheck | .shiftDoneTransmitCheck | .shiftDoneWaitAck | .commit => none

/-- The hazard an event of the environment is: that of the wire instruction it completes. -/
def eventHazard (e : Event) (s : State) : Option Hazard :=
  match e with
  | .bit m => (completedInstr m s).bind fun i => instrHazard i s
  | .reset | .tick | .start => none

/-- With a zero period nothing moves: the timer is stopped and no steps remain. It holds as long as no hazard occurs. -/
abbrev MotionInv (s : State) : Prop := s.active.period = 0#32 → s.tRun = false ∧ s.active.stepCounter = 0#32

/-! ### Time -/

/-- Ticks until the next step, while the timer runs and no command intervenes: the count and the whole segments still to carry
(spec/40_stepping_engine.md R90). -/
def ticksToStep (s : State) : Nat := s.tCnt.toNat + Config.timerMax * ((s.acc.toNat - 1) / Config.timerMax)

/-- The carry expiries in a period, `ceil(period / 65535) - 1` (R90). -/
def carriesOf (period : Word) : Nat := (period.toNat - 1) / Config.timerMax

/-! ### The two agents' shares of the state (spec/10_state.md R26) -/

/-- What the Stepping Engine reads and writes. -/
structure MotionView where
  active : CommandBlock
  acc : Word
  tReload : BitVec 16
  tCnt : BitVec 16
  tRun : Bool
  phase : BitVec 4
  drvEn : BitVec 2
  deriving DecidableEq, Repr

/-- The motion part of a state. -/
def motionView (s : State) : MotionView where
  active := s.active
  acc := s.acc
  tReload := s.tReload
  tCnt := s.tCnt
  tRun := s.tRun
  phase := s.phase
  drvEn := s.drvEn

end Sys2Proof.Machine
end

