-- ==== Sys2Proof/Certificates/Slice0/Obligations.lean ====
section
/-! DEFINITION. The statements for the provers. Each names the rules of spec/ it formalises; OBLIGATIONS.json lists them. The next
state is written out field by field, so that each result statement is the frame and the completion statement as well: every
field not named is unchanged. -/

open Sys2Proof Sys2Proof.Machine

/-! ### Reset -/

/-- Reset values: spec/10_state.md section 7 (decision D21 of the spec; log entry 5) and spec/70_reset_and_hazards.md section 1.
That the waiting events stay is the model's choice (log entry 29). -/
def Obligations.ResetRestoresEveryRegister : Prop :=
  ∀ s : State,
    exec .reset s = .next { State.reset with inputs := s.inputs } ∧
    State.reset.active = { period := 0#32, stepCounter := 0#32, control := 0x00#8 } ∧
    (∀ a, Memory.read State.reset.staged a = 0x00#8) ∧
    State.reset.acc = 0#32 ∧ State.reset.tReload = 0#16 ∧ State.reset.tCnt = 0#16 ∧ State.reset.tRun = false ∧
    State.reset.phase = 0b0000#4 ∧ State.reset.drvEn = 0b00#2 ∧ State.reset.proto = .idle ∧
    State.reset.rxIndex = 0#4 ∧ State.reset.txIndex = 0#2 ∧ State.reset.rw = false ∧
    State.reset.readExpected = false ∧ State.reset.sr = 0x00#8 ∧ State.reset.bitcnt = 0#4 ∧ State.reset.oe = false

/-- The block does nothing until a start condition: spec/70_reset_and_hazards.md section 1 (R212, derived there), in every state
whose timer is stopped and whose shifter is idle, the reset state among them. -/
def Obligations.QuietBlockIgnoresTicksAndPulses : Prop :=
  ∀ s : State,
    (s.tRun = false → exec .tick s = .next s) ∧
    (s.bitcnt = 0#4 → ∀ m, exec (.bit m) s = .next s)

/-! ### The wire commands -/

/-- R151, R152: ENABLE and DISABLE write `DRV_EN` and nothing else. -/
def Obligations.DriverCommandsWriteOnlyDrvEn : Prop :=
  ∀ s : State,
    exec .enable s = .next { s with drvEn := 0b11#2 } ∧
    exec .disable s = .next { s with drvEn := 0b00#2 }

/-- R153, both cases. The empty list of staged cells is the nine zero bytes. -/
def Obligations.BeginCommitsAndArmsOrDoesNothing : Prop :=
  ∀ s : State,
    (be32 (s.staged.read 4) (s.staged.read 5) (s.staged.read 6) (s.staged.read 7) ≠ 0#32 →
      exec .begin s = .next
        { s with
          active :=
            { period := be32 (s.staged.read 0) (s.staged.read 1) (s.staged.read 2) (s.staged.read 3)
              stepCounter := be32 (s.staged.read 4) (s.staged.read 5) (s.staged.read 6) (s.staged.read 7)
              control := (s.staged.read 8).extractLsb' 2 6 ++ s.active.control.extractLsb' 0 2 }
          staged := []
          acc := be32 (s.staged.read 0) (s.staged.read 1) (s.staged.read 2) (s.staged.read 3)
          tReload := 1#16
          tCnt := 1#16
          tRun := true }) ∧
    (be32 (s.staged.read 4) (s.staged.read 5) (s.staged.read 6) (s.staged.read 7) = 0#32 →
      exec .begin s = .next s)

/-- R154: PAUSE writes `T_RUN` and nothing else. -/
def Obligations.PauseOnlyStopsTheTimer : Prop :=
  ∀ s : State, exec .pause s = .next { s with tRun := false }

/-- RESUME: spec/43_commands.md section 3 and spec/40_stepping_engine.md section 3. That `ACC` is not written is decision D11 of
the spec (log entry 14), the timer model decision D3 (log entry 8). -/
def Obligations.ResumeForcesAnExpiryOnTheNextTick : Prop :=
  ∀ s : State,
    exec .resume s = .next { s with tReload := 1#16, tCnt := 1#16, tRun := true } ∧
    exec .tick { s with tReload := 1#16, tCnt := 1#16, tRun := true } =
      exec .expire { s with tReload := 1#16, tCnt := 0#16, tRun := true }

/-- READ_STEPS writes `READ_EXPECTED` and nothing else: spec/43_commands.md section 4. -/
def Obligations.ReadStepsOnlyArmsTheRead : Prop :=
  ∀ s : State, exec .readSteps s = .next { s with readExpected := true }

/-- The reserved values act as the first payload byte: spec/43_commands.md sections 3 to 5, decision D20 of the spec (log entry
19); with `RX_INDEX` not 0 the model's choice (log entry 31). -/
def Obligations.ReservedOpcodesActAsFirstPayloadByte : Prop :=
  ∀ s : State,
    exec .stop s = exec (.payload0 0xA6#8) s ∧
    exec .readPeriod s = exec (.payload0 0xB1#8) s ∧
    exec .readSettings s = exec (.payload0 0xB3#8) s ∧
    exec .stop s = .next { s with staged := s.staged.write 0 0xA6#8, rxIndex := 1#4 } ∧
    exec .readPeriod s = .next { s with staged := s.staged.write 0 0xB1#8, rxIndex := 1#4 } ∧
    exec .readSettings s = .next { s with staged := s.staged.write 0 0xB3#8, rxIndex := 1#4 }

/-! ### Payload -/

/-- PAYLOAD0 stores at offset 0 and sets `RX_INDEX` to 1; every other byte of STG reads as before: spec/43_commands.md section 5.
With `RX_INDEX` not 0, outside the precondition of R160, that the row does the same is the model's choice (log entry 31). -/
def Obligations.FirstPayloadByteGoesToOffsetZero : Prop :=
  ∀ (v : Byte) (s : State), Memory.wf s.staged = true →
    ∃ t, exec (.payload0 v) s = .next t ∧
      t = { s with staged := t.staged, rxIndex := 1#4 } ∧
      t.staged.read 0 = v ∧
      ∀ a, a ≠ 0 → t.staged.read a = s.staged.read a

/-- PAYLOADn stores at the offset `RX_INDEX` and moves it on, but for the ninth byte, which completes the write; every other byte of
STG reads as before: spec/42_i2c_framing.md section 4. With `RX_INDEX` 0, outside the precondition of R128, that the row stores at
offset 0 and moves on to 1 is the model's choice (log entry 31). -/
def Obligations.LaterPayloadBytesGoToRxIndex : Prop :=
  ∀ (v : Byte) (s : State), Memory.wf s.staged = true → s.rxIndex.toNat ≤ 8 →
    ∃ t, exec (.payloadN v) s = .next t ∧
      t = { s with staged := t.staged, rxIndex := if s.rxIndex = 8#4 then 8#4 else s.rxIndex + 1#4 } ∧
      t.staged.read s.rxIndex.toNat = v ∧
      (∀ a, a ≠ s.rxIndex.toNat → t.staged.read a = s.staged.read a) ∧
      (payloadCompletes s = true ↔ s.rxIndex = 8#4)

/-- CONTROL_BYTE: spec/30_encoding.md section 2 ("the hardware stores whatever it is sent") at offset 8 of spec/20_memory.md
section 1; that the row is executed on its own is the model's choice (log entry 25). -/
def Obligations.ControlByteIsStoredFieldByField : Prop :=
  ∀ (r : BitVec 4) (h d : Bool) (m : BitVec 2) (s : State), Memory.wf s.staged = true →
    ∃ t, exec (.controlByte r h d m) s = .next t ∧
      t = { s with staged := t.staged } ∧
      (stagedControl t).extractLsb' 4 4 = r ∧ (stagedControl t).getLsbD 3 = h ∧
      (stagedControl t).getLsbD 2 = d ∧ (stagedControl t).extractLsb' 0 2 = m ∧
      ∀ a, a ≠ 8 → t.staged.read a = s.staged.read a

/-- LOAD: spec/30_encoding.md sections 2 and 3, spec/20_memory.md section 1. The nine bytes fill the block, big-endian; log entry
25 for the row as one instruction. -/
def Obligations.LoadFillsTheStagedBlock : Prop :=
  ∀ (p c : Word) (r : BitVec 4) (h d : Bool) (m : BitVec 2) (s : State),
    Memory.wf s.staged = true → (Instr.load p c r h d m).wellFormed = true →
    ∃ t, exec (.load p c r h d m) s = .next t ∧
      t = { s with staged := t.staged, rxIndex := 8#4 } ∧
      stagedPeriod t = p ∧ stagedCount t = c ∧ stagedControl t = controlByteOf r h d m ∧
      ∀ a, 8 < a → t.staged.read a = s.staged.read a

/-- Opcode collision: spec/70_reset_and_hazards.md section 3 (R214, derived there). A LOAD whose first byte is an implemented opcode
is that command, and the rest is dropped. -/
def Obligations.CollidingLoadIsTheCommand : Prop :=
  ∀ (p c : Word) (r : BitVec 4) (h d : Bool) (m : BitVec 2) (s : State),
    (Instr.load p c r h d m).wellFormed = false →
    exec (.load p c r h d m) s = exec (firstInstr (firstByte (p.extractLsb' 24 8))) s

/-! ### The address byte -/

/-- A matching address is acknowledged: spec/42_i2c_framing.md section 3. An un-armed read is handled as a write by decision D15 of
the spec (log entry 17). That the rows run in every protocol state is the model's choice (log entry 32). -/
def Obligations.MatchingAddressIsAcknowledged : Prop :=
  ∀ (a : BitVec 7) (s : State), a = Config.ownAddr ∨ a = Config.bcastAddr →
    exec (.addrW a) s = .next
      { s with rw := false, proto := .receiveByte, sr := 0x00#8, oe := true, bitcnt := 1#4 } ∧
    (s.readExpected = true → exec (.addrR a) s = .next
      { s with
        rw := true, readExpected := false, proto := .transmitCheck, sr := 0x00#8, oe := true, bitcnt := 1#4 }) ∧
    (s.readExpected = false → exec (.addrR a) s = .next
      { s with rw := false, proto := .receiveByte, sr := 0x00#8, oe := true, bitcnt := 1#4 })

/-- A mismatching address gets NACK and touches no command block: spec/42_i2c_framing.md section 3; that `READ_EXPECTED` is kept is
decision D15 of the spec (log entry 17). That the rows run in every protocol state is the model's choice (log entry 32). -/
def Obligations.MismatchingAddressIsNotAcknowledged : Prop :=
  ∀ (a : BitVec 7) (s : State), a ≠ Config.ownAddr → a ≠ Config.bcastAddr →
    exec (.addrW a) s = .next { s with sr := 0xFF#8, oe := true, bitcnt := 1#4, proto := .idlePrep } ∧
    exec (.addrR a) s = .next { s with sr := 0xFF#8, oe := true, bitcnt := 1#4, proto := .idlePrep }

/-! ### Telemetry -/

/-- R130: READ loads the telemetry byte of the live counter, starts to send it, and moves `TX_INDEX` on, up to 2. -/
def Obligations.ReadSendsTheLiveCounterByte : Prop :=
  ∀ s : State, exec .read s = .next
    { s with
      sr := telemetryByte s.active.stepCounter s.txIndex.toNat
      oe := true
      bitcnt := 8#4
      txIndex := if s.txIndex.toNat < 2 then s.txIndex + 1#2 else s.txIndex
      proto := .waitAck }

/-- The telemetry stream: spec/20_memory.md section 1; which byte is the high one is the parameter TX_HIGH_SEL, decision D18 of the
spec (log entry 18). Both values are covered. -/
def Obligations.TelemetryIsHighByteLowByteThenZeros : Prop :=
  ∀ c : Word,
    telemetryByte c 0 = highByte Config.txHighSel c ∧
    (highByte .msb32 c).toNat = c.toNat / 2 ^ 24 ∧
    (highByte .hi16 c).toNat = c.toNat / 2 ^ 8 % 2 ^ 8 ∧
    (telemetryByte c 1).toNat = c.toNat % 2 ^ 8 ∧
    ∀ i, 2 ≤ i → telemetryByte c i = 0x00#8

/-! ### The Stepping Engine -/

/-- TICK: spec/40_stepping_engine.md section 1; the timer model is decision D3 of the spec (log entry 8). -/
def Obligations.TickCountsDownAndRaisesExpireAtZero : Prop :=
  ∀ s : State, s.tRun = true →
    (1 < s.tCnt.toNat → exec .tick s = .next { s with tCnt := s.tCnt - 1#16 }) ∧
    (s.tCnt = 1#16 → ∃ t, exec .expire { s with tCnt := 0#16 } = .next t ∧ exec .tick s = .next t)

/-- A running timer with a zero count: `raise Unspecified(U2)`, spec/40_stepping_engine.md section 1, which a model treats as a
fault (spec/93_implementation_defined.md U2; log entry 20). -/
def Obligations.TickOnAZeroCountFaults : Prop :=
  ∀ s : State, s.tRun = true → s.tCnt = 0#16 → exec .tick s = .fault .zeroTimerCount

/-- EXPIRE: spec/40_stepping_engine.md section 2; which expiry steps is decision D5 of the spec (log entry 9). That
the row runs in every state, not only when TICK raises it, is the model's choice (log entry 23). -/
def Obligations.ExpireCarriesAboveTheTimerMaximum : Prop :=
  ∀ s : State,
    (65535 < s.acc.toNat → ∃ t, exec .expireCarry s = .next t ∧ exec .expire s = .next t) ∧
    (s.acc.toNat ≤ 65535 → ∃ t, exec .expireStep s = .next t ∧ exec .expire s = .next t)

/-- The carry: spec/40_stepping_engine.md section 2. It reloads the timer and takes one segment off the accumulator, and nothing
else; under its precondition the result is at least 1 and nothing underflows. That the row does the same outside the precondition,
with `ACC` at most 65535, is the model's choice (log entry 23). -/
def Obligations.CarryOnlyReloadsAndTakesOneSegment : Prop :=
  ∀ s : State,
    exec .expireCarry s = .next { s with tReload := 65535#16, tCnt := 65535#16, acc := s.acc - 65535#32 } ∧
    (65535 < s.acc.toNat → (s.acc - 65535#32).toNat = s.acc.toNat - 65535 ∧ 1 ≤ (s.acc - 65535#32).toNat)

/-- The step, all five actions in order: spec/40_stepping_engine.md section 2 (decisions D7, D8, D9, D10 of the spec; log entries
10 to 13). That the row does the same outside the precondition of R83, with `ACC` above 65535, is the model's choice (log entry 23). -/
def Obligations.StepPerformsTheFiveActions : Prop :=
  ∀ s : State,
    let m := s.active.control.extractLsb' 0 2
    let count := s.active.stepCounter - 1#32
    exec .expireStep s = .next
      { s with
        tReload := s.acc.extractLsb' 0 16
        tCnt := s.acc.extractLsb' 0 16
        acc := s.active.period
        phase := if m = 0#2 then 0b0101#4 else if m = 1#2 then 0b0110#4 else if m = 2#2 then 0b1010#4 else 0b1001#4
        active :=
          { period := s.active.period
            stepCounter := count
            control := s.active.control.extractLsb' 2 6 ++
              (if s.active.control.getLsbD 2 then m + 1#2 else m - 1#2) }
        tRun := if count = 0#32 then false else s.tRun
        drvEn := if count = 0#32 ∧ s.active.control.getLsbD 3 = false then 0b00#2 else s.drvEn }

/-- The index moves by one modulo 4 in the direction of travel, and bits 7:2 of the control byte are not touched:
spec/40_stepping_engine.md section 2. That the row does so with `ACC` above 65535 too is the model's choice (log entry 23). -/
def Obligations.ModeIndexMovesByOneModuloFour : Prop :=
  ∀ s : State, ∃ t, exec .expireStep s = .next t ∧
    (s.active.control.getLsbD 2 = true → (modeIndex t).toNat = ((modeIndex s).toNat + 1) % 4) ∧
    (s.active.control.getLsbD 2 = false → (modeIndex t).toNat = ((modeIndex s).toNat + 3) % 4) ∧
    t.active.control.extractLsb' 2 6 = s.active.control.extractLsb' 2 6

/-! ### The bus events -/

/-- START, in every state: spec/41_i2c_bit_layer.md section 2 (decision D13 of the spec; log entry 16). -/
def Obligations.StartRestartsTheSession : Prop :=
  ∀ s : State, exec .start s = .next
    { s with oe := false, bitcnt := 8#4, rxIndex := 0#4, txIndex := 0#2, rw := false, proto := .addressWait }

/-- BIT before the last bit of a shift: spec/41_i2c_bit_layer.md sections 1 and 3 (decision D12 of the spec; log entry 15). The line
is low when another device or the block pulls it low; the bit enters at the low end. -/
def Obligations.PulseShiftsTheLineLevelIn : Prop :=
  ∀ (m : Bool) (s : State), 1 < s.bitcnt.toNat →
    ∃ t, exec (.bit m) s = .next t ∧
      t = { s with sr := t.sr, bitcnt := s.bitcnt - 1#4 } ∧
      t.sr.toNat =
        (2 * s.sr.toNat + (if m = true ∧ ¬ (s.oe = true ∧ s.sr.getLsbD 7 = false) then 1 else 0)) % 256

/-- BIT at the last bit of a shift raises SHIFT_DONE in the same transition: spec/41_i2c_bit_layer.md section 3,
spec/42_i2c_framing.md section 2. -/
def Obligations.LastPulseRaisesShiftDone : Prop :=
  ∀ (m : Bool) (s : State), s.bitcnt = 1#4 →
    let u := shiftBit m s
    u = { s with sr := s.sr.extractLsb' 0 7 ++ BitVec.ofBool (m && !(s.oe && !s.sr.getLsbD 7)), bitcnt := 0#4 } ∧
    (s.proto = .addressWait → exec (.bit m) s = exec .shiftDoneAddressWait u) ∧
    (s.proto = .idlePrep → exec (.bit m) s = exec .shiftDoneIdlePrep u) ∧
    (s.proto = .receiveByte → exec (.bit m) s = exec .shiftDoneReceiveByte u) ∧
    (s.proto = .receiveCheck → exec (.bit m) s = exec .shiftDoneReceiveCheck u) ∧
    (s.proto = .transmitCheck → exec (.bit m) s = exec .shiftDoneTransmitCheck u) ∧
    (s.proto = .waitAck → exec (.bit m) s = exec .shiftDoneWaitAck u)

/-- What the spec calls unreachable stops by name: SHIFT_DONE in Idle (spec/42_i2c_framing.md section 2; log entry 21) and an offset
STG does not have (spec/20_memory.md section 1; log entry 22). SHIFT_DONE in ReceiveCheck is run in every protocol state (log entry 23). -/
def Obligations.UnreachableCasesStopByName : Prop :=
  ∀ (m : Bool) (v : Byte) (s : State),
    (s.bitcnt = 1#4 → s.proto = .idle → exec (.bit m) s = .fault .shiftDoneInIdle) ∧
    (8 < s.rxIndex.toNat → exec (.payloadN v) s = .fault .stagedIndexOutOfRange) ∧
    (8 < s.rxIndex.toNat → exec .shiftDoneReceiveCheck s = .fault .stagedIndexOutOfRange)

/-- After its ACK the block releases the line and asks for a byte; after a byte it has sent it releases the line and asks for one bit:
spec/42_i2c_framing.md sections 4 and 5. That the two rows run in every protocol state is the model's choice (log entry 23). -/
def Obligations.BlockReleasesTheLineAndRequestsTheNextShift : Prop :=
  ∀ s : State,
    exec .shiftDoneReceiveByte s = .next { s with oe := false, bitcnt := 8#4, proto := .receiveCheck } ∧
    exec .shiftDoneWaitAck s = .next { s with oe := false, bitcnt := 1#4, proto := .transmitCheck }

/-- SHIFT_DONE in IdlePrep ends the session: spec/42_i2c_framing.md sections 3 and 6; that the indices are cleared here is decision
D13 of the spec (log entry 16), that the row runs in every protocol state the model's choice (log entry 23). -/
def Obligations.IdlePrepEndsTheSession : Prop :=
  ∀ s : State, exec .shiftDoneIdlePrep s = .next
    { s with oe := false, rw := false, rxIndex := 0#4, txIndex := 0#2, proto := .idle }

/-- The byte in `SR` is decoded at `RX_INDEX` 0 and stored later; always an ACK; then IdlePrep when the write is complete, ReceiveByte
when more may follow: spec/42_i2c_framing.md section 4. The bound on `RX_INDEX` is invariant R27 (d). That the row runs in every
protocol state is the model's choice (log entry 23). -/
def Obligations.ReceiveCheckRunsTheByteAndAcknowledges : Prop :=
  ∀ s : State,
    (s.rxIndex = 0#4 → ∃ t, exec (firstInstr (firstByte s.sr)) s = .next t ∧
      exec .shiftDoneReceiveCheck s = .next
        { t with
          sr := 0x00#8, oe := true, bitcnt := 1#4
          proto := if implementedOpcodes.contains s.sr then .idlePrep else .receiveByte }) ∧
    (s.rxIndex ≠ 0#4 → s.rxIndex.toNat ≤ 8 → ∃ t, exec (.payloadN s.sr) s = .next t ∧
      exec .shiftDoneReceiveCheck s = .next
        { t with
          sr := 0x00#8, oe := true, bitcnt := 1#4
          proto := if s.rxIndex = 8#4 then .idlePrep else .receiveByte })

/-- A NACK of the master after a byte ends the session; otherwise the next byte is sent: spec/42_i2c_framing.md section 5; which
registers the end of a session clears is decision D13 of the spec (log entry 16), that the row runs in every protocol state the
model's choice (log entry 23). -/
def Obligations.TransmitCheckStopsOnNackElseSends : Prop :=
  ∀ s : State,
    (s.txIndex ≠ 0#2 ∧ s.sr.getLsbD 0 = true → exec .shiftDoneTransmitCheck s = .next
      { s with oe := false, rw := false, rxIndex := 0#4, txIndex := 0#2, proto := .idle }) ∧
    (¬ (s.txIndex ≠ 0#2 ∧ s.sr.getLsbD 0 = true) →
      ∃ t, exec .read s = .next t ∧ exec .shiftDoneTransmitCheck s = .next t)

/-- In AddressWait the byte in `SR` is taken as an address byte, address in bits 7:1 and R/W in bit 0:
spec/42_i2c_framing.md section 3, spec/30_encoding.md section 1. That the three rows run in every protocol state is the model's choice
(log entries 23 and 32). -/
def Obligations.AddressWaitRunsTheAddressByte : Prop :=
  ∀ s : State, ∃ t,
    (s.sr.getLsbD 0 = false → exec (.addrW (s.sr.extractLsb' 1 7)) s = .next t) ∧
    (s.sr.getLsbD 0 = true → exec (.addrR (s.sr.extractLsb' 1 7)) s = .next t) ∧
    exec .shiftDoneAddressWait s = .next t

/-! ### The Command Exchange -/

/-- COMMIT under its precondition: spec/44_command_exchange.md (the layout of the control byte is decision D6 of the spec, log entry
10); without it nothing changes, the model's reading of R184 (log entry 23). -/
def Obligations.CommitCopiesAllButTheModeIndex : Prop :=
  ∀ s : State,
    (be32 (s.staged.read 4) (s.staged.read 5) (s.staged.read 6) (s.staged.read 7) ≠ 0#32 →
      exec .commit s = .next
        { s with
          active :=
            { period := be32 (s.staged.read 0) (s.staged.read 1) (s.staged.read 2) (s.staged.read 3)
              stepCounter := be32 (s.staged.read 4) (s.staged.read 5) (s.staged.read 6) (s.staged.read 7)
              control := (s.staged.read 8).extractLsb' 2 6 ++ s.active.control.extractLsb' 0 2 }
          staged := [] }) ∧
    (be32 (s.staged.read 4) (s.staged.read 5) (s.staged.read 6) (s.staged.read 7) = 0#32 →
      exec .commit s = .next s)

/-! ### Step, and the instruction it runs -/

/-- A step takes the next event of the environment as the instruction it is, and with none left nothing changes:
spec/00_scope.md section 4. The list of events is the model's own field (log entry 1). -/
def Obligations.StepRunsTheNextEvent : Prop :=
  ∀ (e : Event) (rest : List Event) (s : State),
    (s.inputs = e :: rest → step s = exec (eventInstr e) { s with inputs := rest }) ∧
    (s.inputs = [] → step s = .next s)

/-- The step that brings in the last bit of a byte runs the instruction the byte decodes to at its position, and where it was a data
byte acknowledges it: spec/41_i2c_bit_layer.md section 3, spec/42_i2c_framing.md sections 3 and 4, spec/43_commands.md section 1.
The bound on `RX_INDEX` is invariant R27 (d). -/
def Obligations.StepRunsTheInstructionTheByteDecodesTo : Prop :=
  ∀ (m : Bool) (rest : List Event) (s : State) (i : Instr),
    s.inputs = .bit m :: rest → s.rxIndex.toNat ≤ 8 → completedInstr m s = some i →
    let u := shiftBit m { s with inputs := rest }
    ∃ t, exec i u = .next t ∧
      (s.proto = .addressWait → step s = .next t) ∧
      (s.proto = .receiveCheck → step s = .next
        { t with
          sr := 0x00#8, oe := true, bitcnt := 1#4
          proto :=
            if (s.rxIndex = 0#4 ∧ implementedOpcodes.contains u.sr = true) ∨ s.rxIndex = 8#4 then .idlePrep
            else .receiveByte }) ∧
      (s.proto = .addressWait ∨ s.proto = .receiveCheck)

/-! ### Encoding -/

/-- Every well-formed instruction that has a word on the wire is read back from its encoding: spec/30_encoding.md sections 1 to 3. -/
def Obligations.DecodeOfEncodeIsTheInstruction : Prop :=
  ∀ i : Instr, i.wellFormed = true → encode i ≠ .silent → decodeWire (encode i) = .ok (i, [])

/-- There is no illegal byte and each byte has one meaning at its position: every byte decodes, to a well-formed instruction whose
encoding is that byte; nine bytes as a payload block do, but for the opcode collision: spec/30_encoding.md sections 1, 2 and 4
(decision D6 of the spec for the control byte, log entry 10). -/
def Obligations.EveryByteDecodesAndEncodesBack : Prop :=
  (∀ (p : Position) (b : Byte), p ≠ .block →
    ∃ i, decodeBytes p [b] = .ok (i, []) ∧ i.wellFormed = true ∧ encode i = .bytes p [b]) ∧
  (∀ p3 p2 p1 p0 c3 c2 c1 c0 k : Byte,
    if implementedOpcodes.contains p3 = true then
      decodeBytes .block [p3, p2, p1, p0, c3, c2, c1, c0, k] = .error .opcodeCollision
    else
      ∃ i, decodeBytes .block [p3, p2, p1, p0, c3, c2, c1, c0, k] = .ok (i, []) ∧ i.wellFormed = true ∧
        encode i = .bytes .block [p3, p2, p1, p0, c3, c2, c1, c0, k])

/-- Words written out from spec/30_encoding.md sections 1 and 2 and spec/41_i2c_bit_layer.md section 3, one for each kind of byte. That
`decodeTableWord`, which has no position, reads an opcode value at the opcode position and any other byte as an address byte is the
model's choice (log entry 3); the fields of the control byte are decision D6 of the spec (log entry 10). -/
def Obligations.SpecWordsDecodeToTheirRows : Prop :=
  decodeTableWord 8 0xA1 = some .enable ∧ decodeTableWord 8 0xA2 = some .disable ∧
  decodeTableWord 8 0xA3 = some .begin ∧ decodeTableWord 8 0xA4 = some .pause ∧
  decodeTableWord 8 0xA5 = some .resume ∧ decodeTableWord 8 0xA6 = some .stop ∧
  decodeTableWord 8 0xB1 = some .readPeriod ∧ decodeTableWord 8 0xB2 = some .readSteps ∧
  decodeTableWord 8 0xB3 = some .readSettings ∧
  decodeTableWord 8 0x20 = some (.addrW 0x10#7) ∧ decodeTableWord 8 0x21 = some (.addrR 0x10#7) ∧
  decodeBytes .first [0x00#8] = .ok (.payload0 0x00#8, []) ∧
  decodeBytes .payload [0xA3#8] = .ok (.payloadN 0xA3#8, []) ∧
  decodeBytes .control [0x0B#8] = .ok (.controlByte 0#4 true false 3#2, []) ∧
  decodeTableWord 72 0x000003E80000000500 = some (.load 1000#32 5#32 0#4 false false 0#2) ∧
  decodeTableWord 1 1 = some (.bit true)

/-! ### Invariants of every step -/

/-- The reset state meets the invariants: spec/10_state.md sections 6 and 7. The reset values are decision D21 of the spec (log entry
5), the canonical form of the staged bytes is the model's (log entry 26). -/
def Obligations.ResetMeetsTheInvariants : Prop := State.reset.Inv ∧ MotionInv State.reset

/-- The session registers fit the protocol state after every step: spec/10_state.md section 6 (R27 (b), (c), (d), derived there) and
the table of spec/42_i2c_framing.md section 2 (decisions D13, D15 and D17 of the spec, log entries 16 and 17). -/
def Obligations.EveryStepKeepsTheSessionInvariant : Prop :=
  ∀ s t : State, SessionInv s → step s = .next t → SessionInv t

/-- The timer and the accumulator stay consistent with the period after every step: spec/40_stepping_engine.md sections 1, 2 and 4
(derived there; decisions D3, D4 and D5 of the spec, log entries 8 and 9). -/
def Obligations.EveryStepKeepsTheTimerInvariant : Prop :=
  ∀ s t : State, TimerInv s → step s = .next t → TimerInv t

/-- The staged bytes stay in canonical form, so that equal contents are equal data (log entry 26). -/
def Obligations.EveryStepKeepsTheStagedBytesCanonical : Prop :=
  ∀ s t : State, StagedInv s → step s = .next t → StagedInv t

/-- Both enable lines stay equal and the phase lines carry a pattern of the ROM, or none yet: spec/10_state.md sections 3 and 6
(decisions D7, D10 and D21 of the spec, log entries 10, 13 and 5). -/
def Obligations.EveryStepKeepsTheOutputsLegal : Prop :=
  ∀ s t : State, OutputInv s → step s = .next t → OutputInv t

/-- From a state that meets the invariants the one stop there is is U2, and it needs a zero period: spec/40_stepping_engine.md
section 1, spec/70_reset_and_hazards.md section 3 (derived there; decisions D3 and D24 of the spec, log entries 8 and 20). -/
def Obligations.OnlyAZeroPeriodStopsTheMachine : Prop :=
  ∀ s : State, s.Inv →
    (∃ t, step s = .next t) ∨
    (step s = .fault .zeroTimerCount ∧ s.active.period = 0#32 ∧ s.tRun = true)

/-- As long as the master avoids the hazards U2 (a BEGIN that commits a zero period) and U4 (a RESUME at a zero count) nothing stops,
whatever else it sends, reserved opcodes (U1) and un-armed reads (U9) among it: spec/93_implementation_defined.md part 1,
spec/70_reset_and_hazards.md section 3 (decisions D15, D20 and D24 of the spec, log entries 17, 19 and 20). -/
def Obligations.StepsAvoidingMotionHazardsNeverStop : Prop :=
  ∀ s : State, s.Inv → MotionInv s →
    (∀ e, s.inputs.head? = some e → eventHazard e s ≠ some .zeroPeriod ∧ eventHazard e s ≠ some .resumeAtZero) →
    ∃ t, step s = .next t ∧ t.Inv ∧ MotionInv t

/-! ### Rules of the whole machine -/

/-- No bus event changes the phase lines or the mode index, not even a BEGIN: spec/10_state.md sections 1, 3 and 6
(`ACTIVE.control[1:0]` and `PHASE` are written only by the Stepping Engine). -/
def Obligations.BusEventsNeverMoveTheMotor : Prop :=
  ∀ (s t : State), (exec .start s = .next t ∨ ∃ m, exec (.bit m) s = .next t) →
    t.phase = s.phase ∧ modeIndex t = modeIndex s

/-- No event but the last bit of an ENABLE asserts the driver: spec/70_reset_and_hazards.md section 3 (R219, derived there;
decision D10 of the spec, log entry 13). -/
def Obligations.OnlyEnableAssertsTheDriver : Prop :=
  ∀ (e : Event) (s t : State), exec (eventInstr e) s = .next t → s.drvEn ≠ 0b11#2 → t.drvEn = 0b11#2 →
    ∃ m, e = .bit m ∧ completedInstr m s = some .enable

/-- No event but RESET and the last bit of a BEGIN with a non-zero staged count changes `ACTIVE.period`, the direction, the hold
bit or the reserved bits: spec/10_state.md section 1, spec/44_command_exchange.md (the bit layout is decision D6 of the spec,
log entry 10). -/
def Obligations.OnlyACommittingBeginReplacesTheCommand : Prop :=
  ∀ (e : Event) (s t : State), exec (eventInstr e) s = .next t →
    t.active.period ≠ s.active.period ∨
      t.active.control.extractLsb' 2 6 ≠ s.active.control.extractLsb' 2 6 →
    e = .reset ∨ ∃ m, e = .bit m ∧ completedInstr m s = some .begin ∧ stagedCount s ≠ 0#32

/-- `READ_EXPECTED` is set by READ_STEPS alone and cleared by an honoured read or RESET alone: spec/10_state.md section 4,
spec/70_reset_and_hazards.md section 3; decision D15 of the spec (log entry 17). -/
def Obligations.ReadArmIsSticky : Prop :=
  ∀ (e : Event) (s t : State), exec (eventInstr e) s = .next t → t.readExpected ≠ s.readExpected →
    (t.readExpected = true ∧ ∃ m, e = .bit m ∧ completedInstr m s = some .readSteps) ∨
    (t.readExpected = false ∧ (e = .reset ∨
      ∃ m a, e = .bit m ∧ completedInstr m s = some (.addrR a) ∧ (a = Config.ownAddr ∨ a = Config.bcastAddr)))

/-- The staged bytes change only by RESET and by the last bit of a data byte that is no ENABLE, DISABLE, PAUSE, RESUME or
READ_STEPS: spec/44_command_exchange.md (R185), spec/20_memory.md section 3. -/
def Obligations.OnlyPayloadBytesAndBeginTouchTheStagedBytes : Prop :=
  ∀ (e : Event) (s t : State), exec (eventInstr e) s = .next t → t.staged ≠ s.staged →
    e = .reset ∨ ∃ m i, e = .bit m ∧ completedInstr m s = some i ∧
      (i = .begin ∨ i = .stop ∨ i = .readPeriod ∨ i = .readSettings ∨
        (∃ v, i = .payload0 v) ∨ ∃ v, i = .payloadN v)

/-- A TICK leaves the bus session alone, and what it does to the motion depends on the motion alone: spec/10_state.md section 6,
spec/60_exceptions.md section 5. Two states with the same motion go on alike, whatever the bus does. -/
def Obligations.TickDependsOnTheMotionAlone : Prop :=
  ∀ s t : State, exec .tick s = .next t →
    t = { s with
          active := t.active, acc := t.acc, tReload := t.tReload, tCnt := t.tCnt, tRun := t.tRun,
          phase := t.phase, drvEn := t.drvEn } ∧
    ∀ u : State, motionView u = motionView s → ∃ v, exec .tick u = .next v ∧ motionView v = motionView t

/-- Bus traffic that completes no motion or driver command leaves the motion alone: spec/20_memory.md sections 3 and 5. -/
def Obligations.OtherBusTrafficLeavesTheMotionAlone : Prop :=
  ∀ (m : Bool) (s t : State), exec (.bit m) s = .next t →
    completedInstr m s ≠ some .enable → completedInstr m s ≠ some .disable → completedInstr m s ≠ some .begin →
    completedInstr m s ≠ some .pause → completedInstr m s ≠ some .resume →
    motionView t = motionView s

/-! ### Time -/

/-- Each tick of a running timer brings the next step one tick nearer, and the step comes when one tick is left:
spec/40_stepping_engine.md section 4 (R90, derived there; decisions D3, D4 and D5 of the spec, log entries 8 and 9). -/
def Obligations.TickBringsTheNextStepOneTickNearer : Prop :=
  ∀ s : State, s.tRun = true → s.tCnt ≠ 0#16 → s.acc ≠ 0#32 →
    (1 < ticksToStep s → ∃ t, exec .tick s = .next t ∧ ticksToStep t = ticksToStep s - 1 ∧
      t.active = s.active ∧ t.phase = s.phase ∧ t.drvEn = s.drvEn ∧ t.tRun = true ∧ t.tCnt ≠ 0#16 ∧ t.acc ≠ 0#32) ∧
    (ticksToStep s = 1 → ∃ t, exec .tick s = .next t ∧ exec .expireStep { s with tCnt := 0#16 } = .next t)

/-- Period exactness: spec/40_stepping_engine.md section 4 (R90, derived there) and the first property of
spec/95_test_vectors.md part 1. A step that does not end the motion is followed, `period` ticks later and not before, by the
next. The timer model is decisions D3 and D4 of the spec (log entry 8), which expiry steps D5 (log entry 9), the wrap of a zero
count D9 (log entry 12). -/
def Obligations.StepsAreExactlyPeriodTicksApart : Prop :=
  ∀ s : State, TimerInv s → s.tRun = true → s.active.period ≠ 0#32 → ticksToStep s = 1 → s.active.stepCounter ≠ 1#32 →
    ∃ t, runTicks 1 s = .next t ∧ t.active.stepCounter = s.active.stepCounter - 1#32 ∧
      (∀ k, k < s.active.period.toNat → ∃ u, runTicks k t = .next u ∧ u.active = t.active ∧ u.phase = t.phase) ∧
      ∃ v, runTicks s.active.period.toNat t = .next v ∧
        v.active.stepCounter = s.active.stepCounter - 2#32 ∧ v.phase = phaseRom (modeIndex t)

/-- Step count exactness: spec/40_stepping_engine.md section 4 (R91, derived there) and spec/70_reset_and_hazards.md sections 3 and
4. A committed BEGIN of `n` steps runs for `1 + 65535 * carries + (n - 1) * period` ticks and not fewer, and leaves the timer
stopped, the count at zero and the index `n` steps on. That the carries come before the first step is decision D5 of the spec (R225,
log entry 9), the timer model D3 and D4 (log entry 8), the driver at the end D10 (log entry 13), the bit layout D6 (log entry 10). -/
def Obligations.BegunMotionTakesExactlyItsSteps : Prop :=
  ∀ s b : State, stagedCount s ≠ 0#32 → stagedPeriod s ≠ 0#32 → exec .begin s = .next b →
    let n := (stagedCount s).toNat
    let time := 1 + 65535 * carriesOf (stagedPeriod s) + (n - 1) * (stagedPeriod s).toNat
    (∀ k, k < time → ∃ u, runTicks k b = .next u ∧ u.tRun = true) ∧
    ∃ t, runTicks time b = .next t ∧ t.tRun = false ∧ t.active.stepCounter = 0#32 ∧
      t.drvEn = (if holdField (stagedControl s) then s.drvEn else 0b00#2) ∧
      (modeIndex t).toNat =
        ((modeIndex s).toNat + (if directionField (stagedControl s) then n else 3 * n)) % 4

/-! ### Bytes and transactions -/

/-- Eight clock pulses bring in a byte, most significant bit first: spec/41_i2c_bit_layer.md section 3, spec/20_memory.md section 2
(decision D12 of the spec, log entry 15). After seven of them the eighth completes it. -/
def Obligations.EightPulsesReceiveAByte : Prop :=
  ∀ (b : Byte) (s : State), s.bitcnt = 8#4 → s.oe = false →
    ∃ u, runEvents (pulses ((byteLevels b).take 7)) s = .next u ∧
      u = { s with sr := u.sr, bitcnt := 1#4 } ∧
      shiftBit (b.getLsbD 0) u = { s with sr := b, bitcnt := 0#4 }

/-- A byte being sent appears on a released line bit by bit, most significant first, and then the block asks for the master's
acknowledge bit: spec/41_i2c_bit_layer.md sections 1 and 3, spec/42_i2c_framing.md section 5. That `SR` takes the line
level in while it is sent, so that it comes back unchanged, is decision D12 of the spec (log entry 15). -/
def Obligations.EightPulsesSendAByte : Prop :=
  ∀ s : State, s.bitcnt = 8#4 → s.oe = true → s.proto = .waitAck →
    seenLevels (pulses (List.replicate 8 true)) s = byteLevels s.sr ∧
    runEvents (pulses (List.replicate 8 true)) s = .next { s with oe := false, bitcnt := 1#4, proto := .transmitCheck }

/-- A whole command transaction: spec/42_i2c_framing.md section 7 (R133, derived there). From every state, whatever session was open,
an address byte that matches and an opcode are acknowledged, whatever level the others put on the line in the two acknowledge
clocks, the command has its effect, and the session is idle again. With both levels 1 the events are those of the notation
`S W(a) op P` (log entry 30). Decisions D12, D13 and D16 of the spec (log entries 15 and 16). -/
def Obligations.CommandTransactionRunsTheCommand : Prop :=
  ∀ (a : BitVec 7) (op : Byte) (m n : Bool) (s : State), a = Config.ownAddr ∨ a = Config.bcastAddr →
    implementedOpcodes.contains op = true →
    let events := .start :: pulses (byteLevels (addressByte a false) ++ [m] ++ byteLevels op ++ [n])
    ((m = true ∧ n = true) → itemsEvents (commandTransaction a op) = events) ∧
    ∃ t, exec (firstInstr (firstByte op)) s = .next t ∧
      runEvents events s = .next
        { t with
          proto := .idle, rxIndex := 0#4, txIndex := 0#2, rw := false, sr := 0x00#8, bitcnt := 0#4, oe := false } ∧
      seenLevels events s = byteLevels (addressByte a false) ++ [false] ++ byteLevels op ++ [false]

/-- A transaction to another device: spec/42_i2c_framing.md sections 3 and 7 (R124, R133), spec/60_exceptions.md section 3. The block
leaves the acknowledge clock to the others: the line shows their level `m`, 1 when nobody acknowledges (the clock of the notation,
log entry 30) and 0 when the addressed device does. Every later pulse is ignored, and nothing but the session registers has
changed. Decisions D12, D13, D15 and D16 of the spec (log entries 15 to 17). -/
def Obligations.UnmatchedTransactionChangesNoCommandBlock : Prop :=
  ∀ (a : BitVec 7) (rw m : Bool) (later : List Bool) (s : State), a ≠ Config.ownAddr → a ≠ Config.bcastAddr →
    let events := .start :: pulses (byteLevels (addressByte a rw) ++ [m] ++ later)
    runEvents events s = .next
      { s with
        proto := .idle, rxIndex := 0#4, txIndex := 0#2, rw := false, sr := 0x7F#7 ++ BitVec.ofBool m, bitcnt := 0#4, oe := false } ∧
    seenLevels events s = byteLevels (addressByte a rw) ++ [m] ++ later

/-- An armed read of two bytes: spec/30_encoding.md section 5 (R68), spec/42_i2c_framing.md sections 5 and 7. The address is
acknowledged, whatever level `m` the others put on the line in that clock, the master sees the high and the low byte of the live
counter, its NACK ends the read, and the arm is spent. With `m` 1 the events are those of the notation `READ 2` (log entry 30).
Decisions D12, D13, D15, D16 and D18 of the spec (log entries 15 to 18). -/
def Obligations.ArmedReadReturnsTheLiveCounter : Prop :=
  ∀ (a : BitVec 7) (m : Bool) (s : State), a = Config.ownAddr ∨ a = Config.bcastAddr → s.readExpected = true →
    let low : Byte := s.active.stepCounter.extractLsb' 0 8
    let events := .start :: pulses (byteLevels (addressByte a true) ++ [m]) ++ itemsEvents [.clockAck, .clockNack]
    (m = true → itemsEvents (readTransaction a 2) = events) ∧
    runEvents events s = .next
      { s with
        proto := .idle, rxIndex := 0#4, txIndex := 0#2, rw := false, readExpected := false,
        sr := low.extractLsb' 0 7 ++ 1#1, bitcnt := 0#4, oe := false } ∧
    seenLevels events s =
      byteLevels (addressByte a true) ++ [false] ++ byteLevels (highByte Config.txHighSel s.active.stepCounter) ++ [false] ++
        byteLevels low ++ [true]
end

