-- ==== Sys2Proof/Laws/Fields.lean ====
section
/-! SUPPORT. The fields of bytes and words: taking apart what was put together, and putting together what was taken apart
(spec/20_memory.md R42 asks that the overlay be a serialisation contract, read both ways). -/

namespace Sys2Proof

/-- The bits of a big-endian word, byte by byte. -/
theorem be32_getLsbD (a b c d : Byte) (i : Nat) :
    (be32 a b c d).getLsbD i =
      if i < 8 then d.getLsbD i else if i < 16 then c.getLsbD (i - 8) else if i < 24 then b.getLsbD (i - 16)
      else a.getLsbD (i - 24) := by
  show ((a ++ b ++ c ++ d : BitVec (8 + 8 + 8 + 8))).getLsbD i = _
  rw [BitVec.getLsbD_append, BitVec.getLsbD_append, BitVec.getLsbD_append]
  have h1 : i - 8 - 8 = i - 16 := by omega
  have h2 : i - 16 - 8 = i - 24 := by omega
  rw [h1, h2]
  by_cases h8 : i < 8
  · simp [h8]
  · by_cases h16 : i < 16
    · have : i - 8 < 8 := by omega
      simp [h8, h16, this]
    · have : ¬ i - 8 < 8 := by omega
      by_cases h24 : i < 24
      · have h3 : i - 16 < 8 := by omega
        simp [h8, h16, h24, this, h3]
      · have h3 : ¬ i - 16 < 8 := by omega
        simp [h8, h16, h24, this, h3]

/-- The bytes of a word put together are the word. -/
theorem be32_of_bytes (w : Word) :
    be32 (w.extractLsb' 24 8) (w.extractLsb' 16 8) (w.extractLsb' 8 8) (w.extractLsb' 0 8) = w := by
  unfold be32
  rw [BitVec.extractLsb'_append_extractLsb'_eq_extractLsb' (by rfl),
    BitVec.extractLsb'_append_extractLsb'_eq_extractLsb' (by rfl),
    BitVec.extractLsb'_append_extractLsb'_eq_extractLsb' (by rfl)]
  exact BitVec.extractLsb'_eq_self

/-- The bytes of four bytes put together are the four bytes. -/
theorem be32Bytes_be32 (a b c d : Byte) : be32Bytes (be32 a b c d) = [a, b, c, d] := by
  simp only [be32Bytes, List.cons.injEq, and_true]
  refine ⟨?_, ?_, ?_, ?_⟩ <;>
    · apply BitVec.eq_of_getLsbD_eq
      intro i hi
      have h8 : ¬ 8 + i < 8 := by omega
      have h16 : ¬ 16 + i < 16 := by omega
      have h24 : ¬ 24 + i < 24 := by omega
      have h1 : 8 + i < 16 := by omega
      have h2 : 16 + i < 24 := by omega
      have h3 : ¬ 16 + i < 8 := by omega
      have h4 : ¬ 24 + i < 8 := by omega
      have h5 : ¬ 24 + i < 16 := by omega
      simp [be32_getLsbD, hi, h8, h16, h24, h1, h2, h3, h4, h5]

/-- The fields of a control byte put together are read back. -/
theorem controlByteOf_fields : ∀ (r : BitVec 4) (h d : Bool) (m : BitVec 2),
    reservedField (controlByteOf r h d m) = r ∧ holdField (controlByteOf r h d m) = h ∧
      directionField (controlByteOf r h d m) = d ∧ modeIndexField (controlByteOf r h d m) = m := by
  decide

/-- A control byte is its fields put together. -/
theorem controlByteOf_of_fields : ∀ c : Byte,
    controlByteOf (reservedField c) (holdField c) (directionField c) (modeIndexField c) = c := by
  decide

/-- The fields of an address byte put together are read back. -/
theorem addressByte_fields : ∀ (a : BitVec 7) (rw : Bool),
    addrField (addressByte a rw) = a ∧ rwField (addressByte a rw) = rw := by
  decide

/-- An address byte is its fields put together. -/
theorem addressByte_of_fields : ∀ b : Byte, addressByte (addrField b) (rwField b) = b := by
  decide

/-- The first bytes that complete a write are the implemented opcodes. -/
theorem firstCompletes_eq : ∀ v : Byte, firstCompletes (firstByte v) = implementedOpcodes.contains v := by
  decide

/-- A first byte that does not complete the write is stored. -/
theorem firstEffect_reading : ∀ v : Byte, implementedOpcodes.contains v = false →
    firstByte v = .payload v ∨ (firstByte v = .stop ∧ v = 0xA6#8) ∨
      (firstByte v = .readPeriod ∧ v = 0xB1#8) ∨ (firstByte v = .readSettings ∧ v = 0xB3#8) := by
  decide

/-- Changing the mode index keeps the other bits and gives the new index. -/
theorem withModeIndex_fields : ∀ (c : Byte) (m : BitVec 2),
    modeIndexField (Machine.withModeIndex c m) = m ∧ (Machine.withModeIndex c m).extractLsb' 2 6 = c.extractLsb' 2 6 ∧
      directionField (Machine.withModeIndex c m) = directionField c ∧
      holdField (Machine.withModeIndex c m) = holdField c := by
  decide

end Sys2Proof
end

