-- ==== Sys2Proof/Laws/Memory.lean ====
section
/-! SUPPORT. The staged bytes (spec/20_memory.md R42): reading after writing, writing keeps the canonical form, and equal contents
are equal data. -/

namespace Sys2Proof.Machine

@[simp] theorem Memory.read_nil (a : Nat) : Memory.read [] a = unlistedByte := rfl

/-- A write leaves every other offset alone. -/
theorem Memory.read_write_ne (m : Memory) {a b : Nat} (v : Byte) (h : b ≠ a) :
    (Memory.write m a v).read b = m.read b := by
  induction m with
  | nil =>
    by_cases hv : v = unlistedByte
    · simp [Memory.write, hv]
    · simp [Memory.write, Memory.read, hv, h]
  | cons c m ih =>
    obtain ⟨k, x⟩ := c
    by_cases hlt : a < k
    · by_cases hv : v = unlistedByte
      · simp [Memory.write, hlt, hv]
      · simp [Memory.write, Memory.read, hlt, hv, h]
    · by_cases hk : a = k
      · subst hk
        by_cases hv : v = unlistedByte
        · simp [Memory.write, Memory.read, hv, h]
        · simp [Memory.write, Memory.read, hv, h]
      · simp [Memory.write, Memory.read, hlt, hk, ih]

/-- An offset below every listed one reads as the unlisted byte. -/
theorem Memory.read_of_below (m : Memory) (a : Nat) (h : m.all (fun c => decide (a < c.1)) = true) :
    m.read a = unlistedByte := by
  induction m with
  | nil => rfl
  | cons c m ih =>
    obtain ⟨k, x⟩ := c
    simp only [List.all_cons, Bool.and_eq_true, decide_eq_true_eq] at h
    have hne : a ≠ k := by have := h.1; omega
    simp [Memory.read, hne, ih h.2]

theorem Memory.wf_cons {k : Nat} {x : Byte} {m : Memory} :
    Memory.wf ((k, x) :: m) = true ↔
      k < Config.stagedWidth ∧ x ≠ unlistedByte ∧ m.all (fun c => decide (k < c.1)) = true ∧ Memory.wf m = true := by
  simp [Memory.wf, and_assoc]

/-- A listed lower bound passes to a smaller one. -/
theorem Memory.below_of_lt {m : Memory} {a k : Nat} (hak : a < k) (h : m.all (fun c => decide (k < c.1)) = true) :
    m.all (fun c => decide (a < c.1)) = true := by
  simp only [List.all_eq_true, decide_eq_true_eq] at h ⊢
  exact fun c hc => lt_trans hak (h c hc)

/-- A write gives the byte written. -/
theorem Memory.read_write_same (m : Memory) (a : Nat) (v : Byte) (h : Memory.wf m = true) :
    (Memory.write m a v).read a = v := by
  induction m with
  | nil =>
    by_cases hv : v = unlistedByte
    · simp [Memory.write, hv]
    · simp [Memory.write, Memory.read, hv]
  | cons c m ih =>
    obtain ⟨k, x⟩ := c
    obtain ⟨-, -, hbelow, hm⟩ := Memory.wf_cons.1 h
    by_cases hlt : a < k
    · by_cases hv : v = unlistedByte
      · have hr := Memory.read_of_below m a (Memory.below_of_lt hlt hbelow)
        simp [Memory.write, Memory.read, hlt, hv, hr, Nat.ne_of_lt hlt]
      · simp [Memory.write, Memory.read, hlt, hv]
    · by_cases hk : a = k
      · subst hk
        by_cases hv : v = unlistedByte
        · simp [Memory.write, hv, Memory.read_of_below m a hbelow]
        · simp [Memory.write, Memory.read, hv]
      · simp [Memory.write, Memory.read, hlt, hk, ih hm]

/-- A lower bound of the listed offsets stays one when a larger offset is written. -/
theorem Memory.below_write {m : Memory} {a k : Nat} (v : Byte) (hka : k < a)
    (h : m.all (fun c => decide (k < c.1)) = true) :
    (Memory.write m a v).all (fun c => decide (k < c.1)) = true := by
  induction m with
  | nil =>
    by_cases hv : v = unlistedByte
    · simp [Memory.write, hv]
    · simp [Memory.write, hv, hka]
  | cons c m ih =>
    obtain ⟨k', x⟩ := c
    simp only [List.all_cons, Bool.and_eq_true] at h
    by_cases hlt : a < k'
    · by_cases hv : v = unlistedByte
      · simp only [Memory.write, hlt, hv, if_true, List.all_cons, h.1, h.2, Bool.and_self]
      · simp only [Memory.write, hlt, hv, if_true, if_false, List.all_cons, h.1, h.2, hka, decide_true, Bool.and_self]
    · by_cases hk : a = k'
      · subst hk
        by_cases hv : v = unlistedByte
        · simpa [Memory.write, hv] using h.2
        · simp only [Memory.write, lt_irrefl, hv, if_true, if_false, List.all_cons, h.2, hka, decide_true, Bool.and_self]
      · simp only [Memory.write, hlt, hk, if_false, List.all_cons, h.1, ih h.2, Bool.and_self]

/-- A write to an offset STG has keeps the canonical form. -/
theorem Memory.wf_write (m : Memory) (a : Nat) (v : Byte) (ha : a < Config.stagedWidth) (h : Memory.wf m = true) :
    Memory.wf (Memory.write m a v) = true := by
  induction m with
  | nil =>
    by_cases hv : v = unlistedByte
    · simp [Memory.write, Memory.wf, hv]
    · simp [Memory.write, Memory.wf, hv, ha]
  | cons c m ih =>
    obtain ⟨k, x⟩ := c
    obtain ⟨hk9, hx, hbelow, hm⟩ := Memory.wf_cons.1 h
    by_cases hlt : a < k
    · by_cases hv : v = unlistedByte
      · simpa only [Memory.write, hlt, hv, if_true] using h
      · have hall : List.all ((k, x) :: m) (fun c => decide (a < c.1)) = true := by
          simp only [List.all_cons, hlt, decide_true, Memory.below_of_lt hlt hbelow, Bool.and_self]
        simpa only [Memory.write, hlt, hv, if_true, if_false] using Memory.wf_cons.2 ⟨ha, hv, hall, h⟩
    · by_cases hk : a = k
      · subst hk
        by_cases hv : v = unlistedByte
        · simpa [Memory.write, hv] using hm
        · simpa [Memory.write, hv] using Memory.wf_cons.2 ⟨ha, hv, hbelow, hm⟩
      · have hka : k < a := by omega
        simpa [Memory.write, hlt, hk] using Memory.wf_cons.2 ⟨hk9, hx, Memory.below_write v hka hbelow, ih hm⟩

/-- Canonical memories that read alike are the same data. -/
theorem Memory.ext_of_wf {m n : Memory} (hm : Memory.wf m = true) (hn : Memory.wf n = true)
    (h : ∀ a, m.read a = n.read a) : m = n := by
  induction m generalizing n with
  | nil =>
    cases n with
    | nil => rfl
    | cons d n =>
      obtain ⟨k, x⟩ := d
      exact absurd (by simpa [Memory.read] using (h k).symm) (Memory.wf_cons.1 hn).2.1
  | cons c m ih =>
    obtain ⟨k, x⟩ := c
    obtain ⟨-, hx, hbelow, hm'⟩ := Memory.wf_cons.1 hm
    cases n with
    | nil => exact absurd (by simpa [Memory.read] using h k) hx
    | cons d n =>
      obtain ⟨k', x'⟩ := d
      obtain ⟨-, hx', hbelow', hn'⟩ := Memory.wf_cons.1 hn
      have hkk : k = k' := by
        rcases Nat.lt_trichotomy k k' with hlt | heq | hgt
        · have := h k
          simp only [Memory.read, if_true, Nat.ne_of_lt hlt, if_false,
            Memory.read_of_below n k (Memory.below_of_lt hlt hbelow')] at this
          exact absurd this hx
        · exact heq
        · have := h k'
          simp only [Memory.read, if_true, Nat.ne_of_lt hgt, if_false,
            Memory.read_of_below m k' (Memory.below_of_lt hgt hbelow)] at this
          exact absurd this.symm hx'
      subst hkk
      have hxx : x = x' := by simpa [Memory.read] using h k
      subst hxx
      congr 1
      refine ih hm' hn' fun a => ?_
      by_cases ha : a = k
      · subst ha
        rw [Memory.read_of_below m a hbelow, Memory.read_of_below n a hbelow']
      · simpa [Memory.read, ha] using h a

end Sys2Proof.Machine
end

