-- ==== Sys2Proof/Laws/State.lean ====
section
/-! SUPPORT. What each shared operation leaves in each field of the state: one rewrite rule per field, so that no proof unfolds a
record update. -/

namespace Sys2Proof.Machine

/-! takeReset -/

@[simp] theorem takeReset_active (s : State) : (takeReset s).active = State.reset.active := rfl
@[simp] theorem takeReset_staged (s : State) : (takeReset s).staged = State.reset.staged := rfl
@[simp] theorem takeReset_acc (s : State) : (takeReset s).acc = State.reset.acc := rfl
@[simp] theorem takeReset_tReload (s : State) : (takeReset s).tReload = State.reset.tReload := rfl
@[simp] theorem takeReset_tCnt (s : State) : (takeReset s).tCnt = State.reset.tCnt := rfl
@[simp] theorem takeReset_tRun (s : State) : (takeReset s).tRun = State.reset.tRun := rfl
@[simp] theorem takeReset_phase (s : State) : (takeReset s).phase = State.reset.phase := rfl
@[simp] theorem takeReset_drvEn (s : State) : (takeReset s).drvEn = State.reset.drvEn := rfl
@[simp] theorem takeReset_proto (s : State) : (takeReset s).proto = State.reset.proto := rfl
@[simp] theorem takeReset_rxIndex (s : State) : (takeReset s).rxIndex = State.reset.rxIndex := rfl
@[simp] theorem takeReset_txIndex (s : State) : (takeReset s).txIndex = State.reset.txIndex := rfl
@[simp] theorem takeReset_rw (s : State) : (takeReset s).rw = State.reset.rw := rfl
@[simp] theorem takeReset_readExpected (s : State) : (takeReset s).readExpected = State.reset.readExpected := rfl
@[simp] theorem takeReset_sr (s : State) : (takeReset s).sr = State.reset.sr := rfl
@[simp] theorem takeReset_bitcnt (s : State) : (takeReset s).bitcnt = State.reset.bitcnt := rfl
@[simp] theorem takeReset_oe (s : State) : (takeReset s).oe = State.reset.oe := rfl
@[simp] theorem takeReset_inputs (s : State) : (takeReset s).inputs = s.inputs := rfl

/-! sendAck -/

@[simp] theorem sendAck_active (s : State) : (sendAck s).active = s.active := rfl
@[simp] theorem sendAck_staged (s : State) : (sendAck s).staged = s.staged := rfl
@[simp] theorem sendAck_acc (s : State) : (sendAck s).acc = s.acc := rfl
@[simp] theorem sendAck_tReload (s : State) : (sendAck s).tReload = s.tReload := rfl
@[simp] theorem sendAck_tCnt (s : State) : (sendAck s).tCnt = s.tCnt := rfl
@[simp] theorem sendAck_tRun (s : State) : (sendAck s).tRun = s.tRun := rfl
@[simp] theorem sendAck_phase (s : State) : (sendAck s).phase = s.phase := rfl
@[simp] theorem sendAck_drvEn (s : State) : (sendAck s).drvEn = s.drvEn := rfl
@[simp] theorem sendAck_proto (s : State) : (sendAck s).proto = s.proto := rfl
@[simp] theorem sendAck_rxIndex (s : State) : (sendAck s).rxIndex = s.rxIndex := rfl
@[simp] theorem sendAck_txIndex (s : State) : (sendAck s).txIndex = s.txIndex := rfl
@[simp] theorem sendAck_rw (s : State) : (sendAck s).rw = s.rw := rfl
@[simp] theorem sendAck_readExpected (s : State) : (sendAck s).readExpected = s.readExpected := rfl
@[simp] theorem sendAck_sr (s : State) : (sendAck s).sr = 0x00#8 := rfl
@[simp] theorem sendAck_bitcnt (s : State) : (sendAck s).bitcnt = 1#4 := rfl
@[simp] theorem sendAck_oe (s : State) : (sendAck s).oe = true := rfl
@[simp] theorem sendAck_inputs (s : State) : (sendAck s).inputs = s.inputs := rfl

/-! sendNack -/

@[simp] theorem sendNack_active (s : State) : (sendNack s).active = s.active := rfl
@[simp] theorem sendNack_staged (s : State) : (sendNack s).staged = s.staged := rfl
@[simp] theorem sendNack_acc (s : State) : (sendNack s).acc = s.acc := rfl
@[simp] theorem sendNack_tReload (s : State) : (sendNack s).tReload = s.tReload := rfl
@[simp] theorem sendNack_tCnt (s : State) : (sendNack s).tCnt = s.tCnt := rfl
@[simp] theorem sendNack_tRun (s : State) : (sendNack s).tRun = s.tRun := rfl
@[simp] theorem sendNack_phase (s : State) : (sendNack s).phase = s.phase := rfl
@[simp] theorem sendNack_drvEn (s : State) : (sendNack s).drvEn = s.drvEn := rfl
@[simp] theorem sendNack_proto (s : State) : (sendNack s).proto = s.proto := rfl
@[simp] theorem sendNack_rxIndex (s : State) : (sendNack s).rxIndex = s.rxIndex := rfl
@[simp] theorem sendNack_txIndex (s : State) : (sendNack s).txIndex = s.txIndex := rfl
@[simp] theorem sendNack_rw (s : State) : (sendNack s).rw = s.rw := rfl
@[simp] theorem sendNack_readExpected (s : State) : (sendNack s).readExpected = s.readExpected := rfl
@[simp] theorem sendNack_sr (s : State) : (sendNack s).sr = 0xFF#8 := rfl
@[simp] theorem sendNack_bitcnt (s : State) : (sendNack s).bitcnt = 1#4 := rfl
@[simp] theorem sendNack_oe (s : State) : (sendNack s).oe = true := rfl
@[simp] theorem sendNack_inputs (s : State) : (sendNack s).inputs = s.inputs := rfl

/-! request -/

@[simp] theorem request_active (n : BitVec 4) (s : State) : (request n s).active = s.active := rfl
@[simp] theorem request_staged (n : BitVec 4) (s : State) : (request n s).staged = s.staged := rfl
@[simp] theorem request_acc (n : BitVec 4) (s : State) : (request n s).acc = s.acc := rfl
@[simp] theorem request_tReload (n : BitVec 4) (s : State) : (request n s).tReload = s.tReload := rfl
@[simp] theorem request_tCnt (n : BitVec 4) (s : State) : (request n s).tCnt = s.tCnt := rfl
@[simp] theorem request_tRun (n : BitVec 4) (s : State) : (request n s).tRun = s.tRun := rfl
@[simp] theorem request_phase (n : BitVec 4) (s : State) : (request n s).phase = s.phase := rfl
@[simp] theorem request_drvEn (n : BitVec 4) (s : State) : (request n s).drvEn = s.drvEn := rfl
@[simp] theorem request_proto (n : BitVec 4) (s : State) : (request n s).proto = s.proto := rfl
@[simp] theorem request_rxIndex (n : BitVec 4) (s : State) : (request n s).rxIndex = s.rxIndex := rfl
@[simp] theorem request_txIndex (n : BitVec 4) (s : State) : (request n s).txIndex = s.txIndex := rfl
@[simp] theorem request_rw (n : BitVec 4) (s : State) : (request n s).rw = s.rw := rfl
@[simp] theorem request_readExpected (n : BitVec 4) (s : State) : (request n s).readExpected = s.readExpected := rfl
@[simp] theorem request_sr (n : BitVec 4) (s : State) : (request n s).sr = s.sr := rfl
@[simp] theorem request_bitcnt (n : BitVec 4) (s : State) : (request n s).bitcnt = n := rfl
@[simp] theorem request_oe (n : BitVec 4) (s : State) : (request n s).oe = false := rfl
@[simp] theorem request_inputs (n : BitVec 4) (s : State) : (request n s).inputs = s.inputs := rfl

/-! sendByte -/

@[simp] theorem sendByte_active (v : Byte) (s : State) : (sendByte v s).active = s.active := rfl
@[simp] theorem sendByte_staged (v : Byte) (s : State) : (sendByte v s).staged = s.staged := rfl
@[simp] theorem sendByte_acc (v : Byte) (s : State) : (sendByte v s).acc = s.acc := rfl
@[simp] theorem sendByte_tReload (v : Byte) (s : State) : (sendByte v s).tReload = s.tReload := rfl
@[simp] theorem sendByte_tCnt (v : Byte) (s : State) : (sendByte v s).tCnt = s.tCnt := rfl
@[simp] theorem sendByte_tRun (v : Byte) (s : State) : (sendByte v s).tRun = s.tRun := rfl
@[simp] theorem sendByte_phase (v : Byte) (s : State) : (sendByte v s).phase = s.phase := rfl
@[simp] theorem sendByte_drvEn (v : Byte) (s : State) : (sendByte v s).drvEn = s.drvEn := rfl
@[simp] theorem sendByte_proto (v : Byte) (s : State) : (sendByte v s).proto = s.proto := rfl
@[simp] theorem sendByte_rxIndex (v : Byte) (s : State) : (sendByte v s).rxIndex = s.rxIndex := rfl
@[simp] theorem sendByte_txIndex (v : Byte) (s : State) : (sendByte v s).txIndex = s.txIndex := rfl
@[simp] theorem sendByte_rw (v : Byte) (s : State) : (sendByte v s).rw = s.rw := rfl
@[simp] theorem sendByte_readExpected (v : Byte) (s : State) : (sendByte v s).readExpected = s.readExpected := rfl
@[simp] theorem sendByte_sr (v : Byte) (s : State) : (sendByte v s).sr = v := rfl
@[simp] theorem sendByte_bitcnt (v : Byte) (s : State) : (sendByte v s).bitcnt = 8#4 := rfl
@[simp] theorem sendByte_oe (v : Byte) (s : State) : (sendByte v s).oe = true := rfl
@[simp] theorem sendByte_inputs (v : Byte) (s : State) : (sendByte v s).inputs = s.inputs := rfl

/-! goTo -/

@[simp] theorem goTo_active (p : ProtoState) (s : State) : (goTo p s).active = s.active := rfl
@[simp] theorem goTo_staged (p : ProtoState) (s : State) : (goTo p s).staged = s.staged := rfl
@[simp] theorem goTo_acc (p : ProtoState) (s : State) : (goTo p s).acc = s.acc := rfl
@[simp] theorem goTo_tReload (p : ProtoState) (s : State) : (goTo p s).tReload = s.tReload := rfl
@[simp] theorem goTo_tCnt (p : ProtoState) (s : State) : (goTo p s).tCnt = s.tCnt := rfl
@[simp] theorem goTo_tRun (p : ProtoState) (s : State) : (goTo p s).tRun = s.tRun := rfl
@[simp] theorem goTo_phase (p : ProtoState) (s : State) : (goTo p s).phase = s.phase := rfl
@[simp] theorem goTo_drvEn (p : ProtoState) (s : State) : (goTo p s).drvEn = s.drvEn := rfl
@[simp] theorem goTo_proto (p : ProtoState) (s : State) : (goTo p s).proto = p := rfl
@[simp] theorem goTo_rxIndex (p : ProtoState) (s : State) : (goTo p s).rxIndex = s.rxIndex := rfl
@[simp] theorem goTo_txIndex (p : ProtoState) (s : State) : (goTo p s).txIndex = s.txIndex := rfl
@[simp] theorem goTo_rw (p : ProtoState) (s : State) : (goTo p s).rw = s.rw := rfl
@[simp] theorem goTo_readExpected (p : ProtoState) (s : State) : (goTo p s).readExpected = s.readExpected := rfl
@[simp] theorem goTo_sr (p : ProtoState) (s : State) : (goTo p s).sr = s.sr := rfl
@[simp] theorem goTo_bitcnt (p : ProtoState) (s : State) : (goTo p s).bitcnt = s.bitcnt := rfl
@[simp] theorem goTo_oe (p : ProtoState) (s : State) : (goTo p s).oe = s.oe := rfl
@[simp] theorem goTo_inputs (p : ProtoState) (s : State) : (goTo p s).inputs = s.inputs := rfl

/-! endSession -/

@[simp] theorem endSession_active (s : State) : (endSession s).active = s.active := rfl
@[simp] theorem endSession_staged (s : State) : (endSession s).staged = s.staged := rfl
@[simp] theorem endSession_acc (s : State) : (endSession s).acc = s.acc := rfl
@[simp] theorem endSession_tReload (s : State) : (endSession s).tReload = s.tReload := rfl
@[simp] theorem endSession_tCnt (s : State) : (endSession s).tCnt = s.tCnt := rfl
@[simp] theorem endSession_tRun (s : State) : (endSession s).tRun = s.tRun := rfl
@[simp] theorem endSession_phase (s : State) : (endSession s).phase = s.phase := rfl
@[simp] theorem endSession_drvEn (s : State) : (endSession s).drvEn = s.drvEn := rfl
@[simp] theorem endSession_proto (s : State) : (endSession s).proto = .idle := rfl
@[simp] theorem endSession_rxIndex (s : State) : (endSession s).rxIndex = 0#4 := rfl
@[simp] theorem endSession_txIndex (s : State) : (endSession s).txIndex = 0#2 := rfl
@[simp] theorem endSession_rw (s : State) : (endSession s).rw = false := rfl
@[simp] theorem endSession_readExpected (s : State) : (endSession s).readExpected = s.readExpected := rfl
@[simp] theorem endSession_sr (s : State) : (endSession s).sr = s.sr := rfl
@[simp] theorem endSession_bitcnt (s : State) : (endSession s).bitcnt = s.bitcnt := rfl
@[simp] theorem endSession_oe (s : State) : (endSession s).oe = false := rfl
@[simp] theorem endSession_inputs (s : State) : (endSession s).inputs = s.inputs := rfl

/-! armImmediate -/

@[simp] theorem armImmediate_active (s : State) : (armImmediate s).active = s.active := rfl
@[simp] theorem armImmediate_staged (s : State) : (armImmediate s).staged = s.staged := rfl
@[simp] theorem armImmediate_acc (s : State) : (armImmediate s).acc = s.acc := rfl
@[simp] theorem armImmediate_tReload (s : State) : (armImmediate s).tReload = 1#16 := rfl
@[simp] theorem armImmediate_tCnt (s : State) : (armImmediate s).tCnt = 1#16 := rfl
@[simp] theorem armImmediate_tRun (s : State) : (armImmediate s).tRun = true := rfl
@[simp] theorem armImmediate_phase (s : State) : (armImmediate s).phase = s.phase := rfl
@[simp] theorem armImmediate_drvEn (s : State) : (armImmediate s).drvEn = s.drvEn := rfl
@[simp] theorem armImmediate_proto (s : State) : (armImmediate s).proto = s.proto := rfl
@[simp] theorem armImmediate_rxIndex (s : State) : (armImmediate s).rxIndex = s.rxIndex := rfl
@[simp] theorem armImmediate_txIndex (s : State) : (armImmediate s).txIndex = s.txIndex := rfl
@[simp] theorem armImmediate_rw (s : State) : (armImmediate s).rw = s.rw := rfl
@[simp] theorem armImmediate_readExpected (s : State) : (armImmediate s).readExpected = s.readExpected := rfl
@[simp] theorem armImmediate_sr (s : State) : (armImmediate s).sr = s.sr := rfl
@[simp] theorem armImmediate_bitcnt (s : State) : (armImmediate s).bitcnt = s.bitcnt := rfl
@[simp] theorem armImmediate_oe (s : State) : (armImmediate s).oe = s.oe := rfl
@[simp] theorem armImmediate_inputs (s : State) : (armImmediate s).inputs = s.inputs := rfl

/-! countDown -/

@[simp] theorem countDown_active (s : State) : (countDown s).active = s.active := rfl
@[simp] theorem countDown_staged (s : State) : (countDown s).staged = s.staged := rfl
@[simp] theorem countDown_acc (s : State) : (countDown s).acc = s.acc := rfl
@[simp] theorem countDown_tReload (s : State) : (countDown s).tReload = s.tReload := rfl
@[simp] theorem countDown_tCnt (s : State) : (countDown s).tCnt = s.tCnt - 1#16 := rfl
@[simp] theorem countDown_tRun (s : State) : (countDown s).tRun = s.tRun := rfl
@[simp] theorem countDown_phase (s : State) : (countDown s).phase = s.phase := rfl
@[simp] theorem countDown_drvEn (s : State) : (countDown s).drvEn = s.drvEn := rfl
@[simp] theorem countDown_proto (s : State) : (countDown s).proto = s.proto := rfl
@[simp] theorem countDown_rxIndex (s : State) : (countDown s).rxIndex = s.rxIndex := rfl
@[simp] theorem countDown_txIndex (s : State) : (countDown s).txIndex = s.txIndex := rfl
@[simp] theorem countDown_rw (s : State) : (countDown s).rw = s.rw := rfl
@[simp] theorem countDown_readExpected (s : State) : (countDown s).readExpected = s.readExpected := rfl
@[simp] theorem countDown_sr (s : State) : (countDown s).sr = s.sr := rfl
@[simp] theorem countDown_bitcnt (s : State) : (countDown s).bitcnt = s.bitcnt := rfl
@[simp] theorem countDown_oe (s : State) : (countDown s).oe = s.oe := rfl
@[simp] theorem countDown_inputs (s : State) : (countDown s).inputs = s.inputs := rfl

/-! carry -/

@[simp] theorem carry_active (s : State) : (carry s).active = s.active := rfl
@[simp] theorem carry_staged (s : State) : (carry s).staged = s.staged := rfl
@[simp] theorem carry_acc (s : State) : (carry s).acc = s.acc - 65535#32 := rfl
@[simp] theorem carry_tReload (s : State) : (carry s).tReload = 65535#16 := rfl
@[simp] theorem carry_tCnt (s : State) : (carry s).tCnt = 65535#16 := rfl
@[simp] theorem carry_tRun (s : State) : (carry s).tRun = s.tRun := rfl
@[simp] theorem carry_phase (s : State) : (carry s).phase = s.phase := rfl
@[simp] theorem carry_drvEn (s : State) : (carry s).drvEn = s.drvEn := rfl
@[simp] theorem carry_proto (s : State) : (carry s).proto = s.proto := rfl
@[simp] theorem carry_rxIndex (s : State) : (carry s).rxIndex = s.rxIndex := rfl
@[simp] theorem carry_txIndex (s : State) : (carry s).txIndex = s.txIndex := rfl
@[simp] theorem carry_rw (s : State) : (carry s).rw = s.rw := rfl
@[simp] theorem carry_readExpected (s : State) : (carry s).readExpected = s.readExpected := rfl
@[simp] theorem carry_sr (s : State) : (carry s).sr = s.sr := rfl
@[simp] theorem carry_bitcnt (s : State) : (carry s).bitcnt = s.bitcnt := rfl
@[simp] theorem carry_oe (s : State) : (carry s).oe = s.oe := rfl
@[simp] theorem carry_inputs (s : State) : (carry s).inputs = s.inputs := rfl

/-! reloadFinal -/

@[simp] theorem reloadFinal_active (s : State) : (reloadFinal s).active = s.active := rfl
@[simp] theorem reloadFinal_staged (s : State) : (reloadFinal s).staged = s.staged := rfl
@[simp] theorem reloadFinal_acc (s : State) : (reloadFinal s).acc = s.active.period := rfl
@[simp] theorem reloadFinal_tReload (s : State) : (reloadFinal s).tReload = s.acc.extractLsb' 0 16 := rfl
@[simp] theorem reloadFinal_tCnt (s : State) : (reloadFinal s).tCnt = s.acc.extractLsb' 0 16 := rfl
@[simp] theorem reloadFinal_tRun (s : State) : (reloadFinal s).tRun = s.tRun := rfl
@[simp] theorem reloadFinal_phase (s : State) : (reloadFinal s).phase = s.phase := rfl
@[simp] theorem reloadFinal_drvEn (s : State) : (reloadFinal s).drvEn = s.drvEn := rfl
@[simp] theorem reloadFinal_proto (s : State) : (reloadFinal s).proto = s.proto := rfl
@[simp] theorem reloadFinal_rxIndex (s : State) : (reloadFinal s).rxIndex = s.rxIndex := rfl
@[simp] theorem reloadFinal_txIndex (s : State) : (reloadFinal s).txIndex = s.txIndex := rfl
@[simp] theorem reloadFinal_rw (s : State) : (reloadFinal s).rw = s.rw := rfl
@[simp] theorem reloadFinal_readExpected (s : State) : (reloadFinal s).readExpected = s.readExpected := rfl
@[simp] theorem reloadFinal_sr (s : State) : (reloadFinal s).sr = s.sr := rfl
@[simp] theorem reloadFinal_bitcnt (s : State) : (reloadFinal s).bitcnt = s.bitcnt := rfl
@[simp] theorem reloadFinal_oe (s : State) : (reloadFinal s).oe = s.oe := rfl
@[simp] theorem reloadFinal_inputs (s : State) : (reloadFinal s).inputs = s.inputs := rfl

/-! phaseOut -/

@[simp] theorem phaseOut_active (s : State) : (phaseOut s).active = s.active := rfl
@[simp] theorem phaseOut_staged (s : State) : (phaseOut s).staged = s.staged := rfl
@[simp] theorem phaseOut_acc (s : State) : (phaseOut s).acc = s.acc := rfl
@[simp] theorem phaseOut_tReload (s : State) : (phaseOut s).tReload = s.tReload := rfl
@[simp] theorem phaseOut_tCnt (s : State) : (phaseOut s).tCnt = s.tCnt := rfl
@[simp] theorem phaseOut_tRun (s : State) : (phaseOut s).tRun = s.tRun := rfl
@[simp] theorem phaseOut_phase (s : State) : (phaseOut s).phase = phaseRom (modeIndex s) := rfl
@[simp] theorem phaseOut_drvEn (s : State) : (phaseOut s).drvEn = s.drvEn := rfl
@[simp] theorem phaseOut_proto (s : State) : (phaseOut s).proto = s.proto := rfl
@[simp] theorem phaseOut_rxIndex (s : State) : (phaseOut s).rxIndex = s.rxIndex := rfl
@[simp] theorem phaseOut_txIndex (s : State) : (phaseOut s).txIndex = s.txIndex := rfl
@[simp] theorem phaseOut_rw (s : State) : (phaseOut s).rw = s.rw := rfl
@[simp] theorem phaseOut_readExpected (s : State) : (phaseOut s).readExpected = s.readExpected := rfl
@[simp] theorem phaseOut_sr (s : State) : (phaseOut s).sr = s.sr := rfl
@[simp] theorem phaseOut_bitcnt (s : State) : (phaseOut s).bitcnt = s.bitcnt := rfl
@[simp] theorem phaseOut_oe (s : State) : (phaseOut s).oe = s.oe := rfl
@[simp] theorem phaseOut_inputs (s : State) : (phaseOut s).inputs = s.inputs := rfl

/-! advance -/

@[simp] theorem advance_active (s : State) : (advance s).active = ⟨s.active.period, s.active.stepCounter,
      withModeIndex s.active.control (nextModeIndex (direction s) (modeIndex s))⟩ := rfl
@[simp] theorem advance_staged (s : State) : (advance s).staged = s.staged := rfl
@[simp] theorem advance_acc (s : State) : (advance s).acc = s.acc := rfl
@[simp] theorem advance_tReload (s : State) : (advance s).tReload = s.tReload := rfl
@[simp] theorem advance_tCnt (s : State) : (advance s).tCnt = s.tCnt := rfl
@[simp] theorem advance_tRun (s : State) : (advance s).tRun = s.tRun := rfl
@[simp] theorem advance_phase (s : State) : (advance s).phase = s.phase := rfl
@[simp] theorem advance_drvEn (s : State) : (advance s).drvEn = s.drvEn := rfl
@[simp] theorem advance_proto (s : State) : (advance s).proto = s.proto := rfl
@[simp] theorem advance_rxIndex (s : State) : (advance s).rxIndex = s.rxIndex := rfl
@[simp] theorem advance_txIndex (s : State) : (advance s).txIndex = s.txIndex := rfl
@[simp] theorem advance_rw (s : State) : (advance s).rw = s.rw := rfl
@[simp] theorem advance_readExpected (s : State) : (advance s).readExpected = s.readExpected := rfl
@[simp] theorem advance_sr (s : State) : (advance s).sr = s.sr := rfl
@[simp] theorem advance_bitcnt (s : State) : (advance s).bitcnt = s.bitcnt := rfl
@[simp] theorem advance_oe (s : State) : (advance s).oe = s.oe := rfl
@[simp] theorem advance_inputs (s : State) : (advance s).inputs = s.inputs := rfl

/-! decrement -/

@[simp] theorem decrement_active (s : State) :
    (decrement s).active = { s.active with stepCounter := s.active.stepCounter - 1#32 } := rfl
@[simp] theorem decrement_staged (s : State) : (decrement s).staged = s.staged := rfl
@[simp] theorem decrement_acc (s : State) : (decrement s).acc = s.acc := rfl
@[simp] theorem decrement_tReload (s : State) : (decrement s).tReload = s.tReload := rfl
@[simp] theorem decrement_tCnt (s : State) : (decrement s).tCnt = s.tCnt := rfl
@[simp] theorem decrement_tRun (s : State) : (decrement s).tRun = s.tRun := rfl
@[simp] theorem decrement_phase (s : State) : (decrement s).phase = s.phase := rfl
@[simp] theorem decrement_drvEn (s : State) : (decrement s).drvEn = s.drvEn := rfl
@[simp] theorem decrement_proto (s : State) : (decrement s).proto = s.proto := rfl
@[simp] theorem decrement_rxIndex (s : State) : (decrement s).rxIndex = s.rxIndex := rfl
@[simp] theorem decrement_txIndex (s : State) : (decrement s).txIndex = s.txIndex := rfl
@[simp] theorem decrement_rw (s : State) : (decrement s).rw = s.rw := rfl
@[simp] theorem decrement_readExpected (s : State) : (decrement s).readExpected = s.readExpected := rfl
@[simp] theorem decrement_sr (s : State) : (decrement s).sr = s.sr := rfl
@[simp] theorem decrement_bitcnt (s : State) : (decrement s).bitcnt = s.bitcnt := rfl
@[simp] theorem decrement_oe (s : State) : (decrement s).oe = s.oe := rfl
@[simp] theorem decrement_inputs (s : State) : (decrement s).inputs = s.inputs := rfl

/-! commitStaged -/

@[simp] theorem commitStaged_active (s : State) : (commitStaged s).active = ⟨stagedPeriod s, stagedCount s,
      withModeIndex (stagedControl s) (modeIndex s)⟩ := rfl
@[simp] theorem commitStaged_staged (s : State) : (commitStaged s).staged = [] := rfl
@[simp] theorem commitStaged_acc (s : State) : (commitStaged s).acc = s.acc := rfl
@[simp] theorem commitStaged_tReload (s : State) : (commitStaged s).tReload = s.tReload := rfl
@[simp] theorem commitStaged_tCnt (s : State) : (commitStaged s).tCnt = s.tCnt := rfl
@[simp] theorem commitStaged_tRun (s : State) : (commitStaged s).tRun = s.tRun := rfl
@[simp] theorem commitStaged_phase (s : State) : (commitStaged s).phase = s.phase := rfl
@[simp] theorem commitStaged_drvEn (s : State) : (commitStaged s).drvEn = s.drvEn := rfl
@[simp] theorem commitStaged_proto (s : State) : (commitStaged s).proto = s.proto := rfl
@[simp] theorem commitStaged_rxIndex (s : State) : (commitStaged s).rxIndex = s.rxIndex := rfl
@[simp] theorem commitStaged_txIndex (s : State) : (commitStaged s).txIndex = s.txIndex := rfl
@[simp] theorem commitStaged_rw (s : State) : (commitStaged s).rw = s.rw := rfl
@[simp] theorem commitStaged_readExpected (s : State) : (commitStaged s).readExpected = s.readExpected := rfl
@[simp] theorem commitStaged_sr (s : State) : (commitStaged s).sr = s.sr := rfl
@[simp] theorem commitStaged_bitcnt (s : State) : (commitStaged s).bitcnt = s.bitcnt := rfl
@[simp] theorem commitStaged_oe (s : State) : (commitStaged s).oe = s.oe := rfl
@[simp] theorem commitStaged_inputs (s : State) : (commitStaged s).inputs = s.inputs := rfl

/-! rearmAcc -/

@[simp] theorem rearmAcc_active (s : State) : (rearmAcc s).active = s.active := rfl
@[simp] theorem rearmAcc_staged (s : State) : (rearmAcc s).staged = s.staged := rfl
@[simp] theorem rearmAcc_acc (s : State) : (rearmAcc s).acc = s.active.period := rfl
@[simp] theorem rearmAcc_tReload (s : State) : (rearmAcc s).tReload = s.tReload := rfl
@[simp] theorem rearmAcc_tCnt (s : State) : (rearmAcc s).tCnt = s.tCnt := rfl
@[simp] theorem rearmAcc_tRun (s : State) : (rearmAcc s).tRun = s.tRun := rfl
@[simp] theorem rearmAcc_phase (s : State) : (rearmAcc s).phase = s.phase := rfl
@[simp] theorem rearmAcc_drvEn (s : State) : (rearmAcc s).drvEn = s.drvEn := rfl
@[simp] theorem rearmAcc_proto (s : State) : (rearmAcc s).proto = s.proto := rfl
@[simp] theorem rearmAcc_rxIndex (s : State) : (rearmAcc s).rxIndex = s.rxIndex := rfl
@[simp] theorem rearmAcc_txIndex (s : State) : (rearmAcc s).txIndex = s.txIndex := rfl
@[simp] theorem rearmAcc_rw (s : State) : (rearmAcc s).rw = s.rw := rfl
@[simp] theorem rearmAcc_readExpected (s : State) : (rearmAcc s).readExpected = s.readExpected := rfl
@[simp] theorem rearmAcc_sr (s : State) : (rearmAcc s).sr = s.sr := rfl
@[simp] theorem rearmAcc_bitcnt (s : State) : (rearmAcc s).bitcnt = s.bitcnt := rfl
@[simp] theorem rearmAcc_oe (s : State) : (rearmAcc s).oe = s.oe := rfl
@[simp] theorem rearmAcc_inputs (s : State) : (rearmAcc s).inputs = s.inputs := rfl

/-! stage -/

@[simp] theorem stage_active (i : Nat) (v : Byte) (s : State) : (stage i v s).active = s.active := rfl
@[simp] theorem stage_staged (i : Nat) (v : Byte) (s : State) : (stage i v s).staged = s.staged.write i v := rfl
@[simp] theorem stage_acc (i : Nat) (v : Byte) (s : State) : (stage i v s).acc = s.acc := rfl
@[simp] theorem stage_tReload (i : Nat) (v : Byte) (s : State) : (stage i v s).tReload = s.tReload := rfl
@[simp] theorem stage_tCnt (i : Nat) (v : Byte) (s : State) : (stage i v s).tCnt = s.tCnt := rfl
@[simp] theorem stage_tRun (i : Nat) (v : Byte) (s : State) : (stage i v s).tRun = s.tRun := rfl
@[simp] theorem stage_phase (i : Nat) (v : Byte) (s : State) : (stage i v s).phase = s.phase := rfl
@[simp] theorem stage_drvEn (i : Nat) (v : Byte) (s : State) : (stage i v s).drvEn = s.drvEn := rfl
@[simp] theorem stage_proto (i : Nat) (v : Byte) (s : State) : (stage i v s).proto = s.proto := rfl
@[simp] theorem stage_rxIndex (i : Nat) (v : Byte) (s : State) : (stage i v s).rxIndex = s.rxIndex := rfl
@[simp] theorem stage_txIndex (i : Nat) (v : Byte) (s : State) : (stage i v s).txIndex = s.txIndex := rfl
@[simp] theorem stage_rw (i : Nat) (v : Byte) (s : State) : (stage i v s).rw = s.rw := rfl
@[simp] theorem stage_readExpected (i : Nat) (v : Byte) (s : State) : (stage i v s).readExpected = s.readExpected := rfl
@[simp] theorem stage_sr (i : Nat) (v : Byte) (s : State) : (stage i v s).sr = s.sr := rfl
@[simp] theorem stage_bitcnt (i : Nat) (v : Byte) (s : State) : (stage i v s).bitcnt = s.bitcnt := rfl
@[simp] theorem stage_oe (i : Nat) (v : Byte) (s : State) : (stage i v s).oe = s.oe := rfl
@[simp] theorem stage_inputs (i : Nat) (v : Byte) (s : State) : (stage i v s).inputs = s.inputs := rfl

/-! storeFirst -/

@[simp] theorem storeFirst_active (v : Byte) (s : State) : (storeFirst v s).active = s.active := rfl
@[simp] theorem storeFirst_staged (v : Byte) (s : State) : (storeFirst v s).staged = s.staged.write 0 v := rfl
@[simp] theorem storeFirst_acc (v : Byte) (s : State) : (storeFirst v s).acc = s.acc := rfl
@[simp] theorem storeFirst_tReload (v : Byte) (s : State) : (storeFirst v s).tReload = s.tReload := rfl
@[simp] theorem storeFirst_tCnt (v : Byte) (s : State) : (storeFirst v s).tCnt = s.tCnt := rfl
@[simp] theorem storeFirst_tRun (v : Byte) (s : State) : (storeFirst v s).tRun = s.tRun := rfl
@[simp] theorem storeFirst_phase (v : Byte) (s : State) : (storeFirst v s).phase = s.phase := rfl
@[simp] theorem storeFirst_drvEn (v : Byte) (s : State) : (storeFirst v s).drvEn = s.drvEn := rfl
@[simp] theorem storeFirst_proto (v : Byte) (s : State) : (storeFirst v s).proto = s.proto := rfl
@[simp] theorem storeFirst_rxIndex (v : Byte) (s : State) : (storeFirst v s).rxIndex = 1#4 := rfl
@[simp] theorem storeFirst_txIndex (v : Byte) (s : State) : (storeFirst v s).txIndex = s.txIndex := rfl
@[simp] theorem storeFirst_rw (v : Byte) (s : State) : (storeFirst v s).rw = s.rw := rfl
@[simp] theorem storeFirst_readExpected (v : Byte) (s : State) : (storeFirst v s).readExpected = s.readExpected := rfl
@[simp] theorem storeFirst_sr (v : Byte) (s : State) : (storeFirst v s).sr = s.sr := rfl
@[simp] theorem storeFirst_bitcnt (v : Byte) (s : State) : (storeFirst v s).bitcnt = s.bitcnt := rfl
@[simp] theorem storeFirst_oe (v : Byte) (s : State) : (storeFirst v s).oe = s.oe := rfl
@[simp] theorem storeFirst_inputs (v : Byte) (s : State) : (storeFirst v s).inputs = s.inputs := rfl

/-! transmitByte -/

@[simp] theorem transmitByte_active (s : State) : (transmitByte s).active = s.active := rfl
@[simp] theorem transmitByte_staged (s : State) : (transmitByte s).staged = s.staged := rfl
@[simp] theorem transmitByte_acc (s : State) : (transmitByte s).acc = s.acc := rfl
@[simp] theorem transmitByte_tReload (s : State) : (transmitByte s).tReload = s.tReload := rfl
@[simp] theorem transmitByte_tCnt (s : State) : (transmitByte s).tCnt = s.tCnt := rfl
@[simp] theorem transmitByte_tRun (s : State) : (transmitByte s).tRun = s.tRun := rfl
@[simp] theorem transmitByte_phase (s : State) : (transmitByte s).phase = s.phase := rfl
@[simp] theorem transmitByte_drvEn (s : State) : (transmitByte s).drvEn = s.drvEn := rfl
@[simp] theorem transmitByte_proto (s : State) : (transmitByte s).proto = .waitAck := rfl
@[simp] theorem transmitByte_rxIndex (s : State) : (transmitByte s).rxIndex = s.rxIndex := rfl
@[simp] theorem transmitByte_txIndex (s : State) : (transmitByte s).txIndex = nextTxIndex s.txIndex := rfl
@[simp] theorem transmitByte_rw (s : State) : (transmitByte s).rw = s.rw := rfl
@[simp] theorem transmitByte_readExpected (s : State) : (transmitByte s).readExpected = s.readExpected := rfl
@[simp] theorem transmitByte_sr (s : State) : (transmitByte s).sr = telemetryByte s.active.stepCounter s.txIndex.toNat := rfl
@[simp] theorem transmitByte_bitcnt (s : State) : (transmitByte s).bitcnt = 8#4 := rfl
@[simp] theorem transmitByte_oe (s : State) : (transmitByte s).oe = true := rfl
@[simp] theorem transmitByte_inputs (s : State) : (transmitByte s).inputs = s.inputs := rfl

/-! shiftBit -/

@[simp] theorem shiftBit_active (m : Bool) (s : State) : (shiftBit m s).active = s.active := rfl
@[simp] theorem shiftBit_staged (m : Bool) (s : State) : (shiftBit m s).staged = s.staged := rfl
@[simp] theorem shiftBit_acc (m : Bool) (s : State) : (shiftBit m s).acc = s.acc := rfl
@[simp] theorem shiftBit_tReload (m : Bool) (s : State) : (shiftBit m s).tReload = s.tReload := rfl
@[simp] theorem shiftBit_tCnt (m : Bool) (s : State) : (shiftBit m s).tCnt = s.tCnt := rfl
@[simp] theorem shiftBit_tRun (m : Bool) (s : State) : (shiftBit m s).tRun = s.tRun := rfl
@[simp] theorem shiftBit_phase (m : Bool) (s : State) : (shiftBit m s).phase = s.phase := rfl
@[simp] theorem shiftBit_drvEn (m : Bool) (s : State) : (shiftBit m s).drvEn = s.drvEn := rfl
@[simp] theorem shiftBit_proto (m : Bool) (s : State) : (shiftBit m s).proto = s.proto := rfl
@[simp] theorem shiftBit_rxIndex (m : Bool) (s : State) : (shiftBit m s).rxIndex = s.rxIndex := rfl
@[simp] theorem shiftBit_txIndex (m : Bool) (s : State) : (shiftBit m s).txIndex = s.txIndex := rfl
@[simp] theorem shiftBit_rw (m : Bool) (s : State) : (shiftBit m s).rw = s.rw := rfl
@[simp] theorem shiftBit_readExpected (m : Bool) (s : State) : (shiftBit m s).readExpected = s.readExpected := rfl
@[simp] theorem shiftBit_sr (m : Bool) (s : State) : (shiftBit m s).sr = shiftedIn s.sr (lineLevel m s) := rfl
@[simp] theorem shiftBit_bitcnt (m : Bool) (s : State) : (shiftBit m s).bitcnt = s.bitcnt - 1#4 := rfl
@[simp] theorem shiftBit_oe (m : Bool) (s : State) : (shiftBit m s).oe = s.oe := rfl
@[simp] theorem shiftBit_inputs (m : Bool) (s : State) : (shiftBit m s).inputs = s.inputs := rfl

/-! startSession -/

@[simp] theorem startSession_active (s : State) : (startSession s).active = s.active := rfl
@[simp] theorem startSession_staged (s : State) : (startSession s).staged = s.staged := rfl
@[simp] theorem startSession_acc (s : State) : (startSession s).acc = s.acc := rfl
@[simp] theorem startSession_tReload (s : State) : (startSession s).tReload = s.tReload := rfl
@[simp] theorem startSession_tCnt (s : State) : (startSession s).tCnt = s.tCnt := rfl
@[simp] theorem startSession_tRun (s : State) : (startSession s).tRun = s.tRun := rfl
@[simp] theorem startSession_phase (s : State) : (startSession s).phase = s.phase := rfl
@[simp] theorem startSession_drvEn (s : State) : (startSession s).drvEn = s.drvEn := rfl
@[simp] theorem startSession_proto (s : State) : (startSession s).proto = .addressWait := rfl
@[simp] theorem startSession_rxIndex (s : State) : (startSession s).rxIndex = 0#4 := rfl
@[simp] theorem startSession_txIndex (s : State) : (startSession s).txIndex = 0#2 := rfl
@[simp] theorem startSession_rw (s : State) : (startSession s).rw = false := rfl
@[simp] theorem startSession_readExpected (s : State) : (startSession s).readExpected = s.readExpected := rfl
@[simp] theorem startSession_sr (s : State) : (startSession s).sr = s.sr := rfl
@[simp] theorem startSession_bitcnt (s : State) : (startSession s).bitcnt = 8#4 := rfl
@[simp] theorem startSession_oe (s : State) : (startSession s).oe = false := rfl
@[simp] theorem startSession_inputs (s : State) : (startSession s).inputs = s.inputs := rfl

/-! acknowledge -/

@[simp] theorem acknowledge_active (done : Bool) (s : State) : (acknowledge done s).active = s.active := rfl
@[simp] theorem acknowledge_staged (done : Bool) (s : State) : (acknowledge done s).staged = s.staged := rfl
@[simp] theorem acknowledge_acc (done : Bool) (s : State) : (acknowledge done s).acc = s.acc := rfl
@[simp] theorem acknowledge_tReload (done : Bool) (s : State) : (acknowledge done s).tReload = s.tReload := rfl
@[simp] theorem acknowledge_tCnt (done : Bool) (s : State) : (acknowledge done s).tCnt = s.tCnt := rfl
@[simp] theorem acknowledge_tRun (done : Bool) (s : State) : (acknowledge done s).tRun = s.tRun := rfl
@[simp] theorem acknowledge_phase (done : Bool) (s : State) : (acknowledge done s).phase = s.phase := rfl
@[simp] theorem acknowledge_drvEn (done : Bool) (s : State) : (acknowledge done s).drvEn = s.drvEn := rfl
@[simp] theorem acknowledge_proto (done : Bool) (s : State) :
    (acknowledge done s).proto = (if done then .idlePrep else .receiveByte) := rfl
@[simp] theorem acknowledge_rxIndex (done : Bool) (s : State) : (acknowledge done s).rxIndex = s.rxIndex := rfl
@[simp] theorem acknowledge_txIndex (done : Bool) (s : State) : (acknowledge done s).txIndex = s.txIndex := rfl
@[simp] theorem acknowledge_rw (done : Bool) (s : State) : (acknowledge done s).rw = s.rw := rfl
@[simp] theorem acknowledge_readExpected (done : Bool) (s : State) : (acknowledge done s).readExpected = s.readExpected := rfl
@[simp] theorem acknowledge_sr (done : Bool) (s : State) : (acknowledge done s).sr = 0x00#8 := rfl
@[simp] theorem acknowledge_bitcnt (done : Bool) (s : State) : (acknowledge done s).bitcnt = 1#4 := rfl
@[simp] theorem acknowledge_oe (done : Bool) (s : State) : (acknowledge done s).oe = true := rfl
@[simp] theorem acknowledge_inputs (done : Bool) (s : State) : (acknowledge done s).inputs = s.inputs := rfl

/-! popInput -/

@[simp] theorem popInput_active (s : State) : (popInput s).active = s.active := rfl
@[simp] theorem popInput_staged (s : State) : (popInput s).staged = s.staged := rfl
@[simp] theorem popInput_acc (s : State) : (popInput s).acc = s.acc := rfl
@[simp] theorem popInput_tReload (s : State) : (popInput s).tReload = s.tReload := rfl
@[simp] theorem popInput_tCnt (s : State) : (popInput s).tCnt = s.tCnt := rfl
@[simp] theorem popInput_tRun (s : State) : (popInput s).tRun = s.tRun := rfl
@[simp] theorem popInput_phase (s : State) : (popInput s).phase = s.phase := rfl
@[simp] theorem popInput_drvEn (s : State) : (popInput s).drvEn = s.drvEn := rfl
@[simp] theorem popInput_proto (s : State) : (popInput s).proto = s.proto := rfl
@[simp] theorem popInput_rxIndex (s : State) : (popInput s).rxIndex = s.rxIndex := rfl
@[simp] theorem popInput_txIndex (s : State) : (popInput s).txIndex = s.txIndex := rfl
@[simp] theorem popInput_rw (s : State) : (popInput s).rw = s.rw := rfl
@[simp] theorem popInput_readExpected (s : State) : (popInput s).readExpected = s.readExpected := rfl
@[simp] theorem popInput_sr (s : State) : (popInput s).sr = s.sr := rfl
@[simp] theorem popInput_bitcnt (s : State) : (popInput s).bitcnt = s.bitcnt := rfl
@[simp] theorem popInput_oe (s : State) : (popInput s).oe = s.oe := rfl
@[simp] theorem popInput_inputs (s : State) : (popInput s).inputs = s.inputs.tail := rfl

end Sys2Proof.Machine
end

