-- ==== Sys2Proof/Laws/Ops.lean ====
section
/-! SUPPORT. What each shared operation, and a step, can do: one lemma each, to be cited instead of unfolding it. -/

namespace Sys2Proof.Machine

/-! ### Staged bytes -/

/-- A later payload byte with `RX_INDEX` in range is stored at it. -/
theorem storePayload_of_le {v : Byte} {s : State} (h : s.rxIndex.toNat ≤ 8) :
    storePayload v s =
      .next { s with
        staged := s.staged.write s.rxIndex.toNat v
        rxIndex := if s.rxIndex = 8#4 then 8#4 else s.rxIndex + 1#4 } := by
  have hw : ¬ Config.stagedWidth ≤ s.rxIndex.toNat := by
    show ¬ 9 ≤ _
    omega
  unfold storePayload
  rw [if_neg hw]
  by_cases h8 : s.rxIndex = 8#4
  · simp [payloadCompletes, h8, stage]
  · simp [payloadCompletes, h8, stage]

/-- A later payload byte with `RX_INDEX` out of range faults. -/
theorem storePayload_of_gt {v : Byte} {s : State} (h : 8 < s.rxIndex.toNat) :
    storePayload v s = .fault .stagedIndexOutOfRange := by
  have hw : Config.stagedWidth ≤ s.rxIndex.toNat := by
    show 9 ≤ _
    omega
  unfold storePayload
  rw [if_pos hw]

/-- Everything a later payload byte can do when it goes on. -/
theorem storePayload_cases {v : Byte} {s t : State} (h : storePayload v s = .next t) :
    s.rxIndex.toNat ≤ 8 ∧
      t = { s with
        staged := s.staged.write s.rxIndex.toNat v
        rxIndex := if s.rxIndex = 8#4 then 8#4 else s.rxIndex + 1#4 } := by
  rcases Nat.lt_or_ge 8 s.rxIndex.toNat with hgt | hle
  · rw [storePayload_of_gt hgt] at h
    exact absurd h (by simp)
  · rw [storePayload_of_le hle, Host.Outcome.next.injEq] at h
    exact ⟨hle, h.symm⟩

/-! ### The Stepping Engine -/

/-- `complete()` with a count left does nothing. -/
theorem complete_of_ne {s : State} (h : s.active.stepCounter ≠ 0#32) : complete s = s := by
  simp [complete, motionComplete, h]

/-- `complete()` at zero stops the timer and, without hold, deasserts the driver. -/
theorem complete_of_zero {s : State} (h : s.active.stepCounter = 0#32) :
    complete s = { s with tRun := false, drvEn := if holdPosition s then s.drvEn else 0b00#2 } := by
  simp [complete, motionComplete, h]

/-- The five actions of a step, composed. -/
theorem stepMotor_eq (s : State) :
    stepMotor s =
      complete
        { s with
          tReload := s.acc.extractLsb' 0 16
          tCnt := s.acc.extractLsb' 0 16
          acc := s.active.period
          phase := phaseRom (modeIndex s)
          active :=
            { period := s.active.period
              stepCounter := s.active.stepCounter - 1#32
              control := withModeIndex s.active.control (nextModeIndex (direction s) (modeIndex s)) } } := rfl

/-- A step leaves everything but the motion alone. -/
theorem stepMotor_session (s : State) :
    stepMotor s =
      { s with
        active := (stepMotor s).active, acc := (stepMotor s).acc, tReload := (stepMotor s).tReload
        tCnt := (stepMotor s).tCnt, tRun := (stepMotor s).tRun, phase := (stepMotor s).phase
        drvEn := (stepMotor s).drvEn } := by
  rw [stepMotor_eq]
  unfold complete
  split <;> rfl

/-- An expiry is a carry or a step. -/
theorem expireTimer_cases (s : State) :
    (Config.timerMax < s.acc.toNat ∧ expireTimer s = carry s) ∨
      (s.acc.toNat ≤ Config.timerMax ∧ expireTimer s = stepMotor s) := by
  by_cases h : Config.timerMax < s.acc.toNat
  · exact .inl ⟨h, by simp [expireTimer, accExceedsTimer, h]⟩
  · exact .inr ⟨Nat.le_of_not_lt h, by simp [expireTimer, accExceedsTimer, h]⟩

/-- Everything a TICK can do when it goes on. -/
theorem execTick_cases {s t : State} (h : execTick s = .next t) :
    (s.tRun = false ∧ t = s) ∨
      (s.tRun = true ∧ s.tCnt ≠ 0#16 ∧
        ((s.tCnt = 1#16 ∧ t = expireTimer (countDown s)) ∨ (s.tCnt ≠ 1#16 ∧ t = countDown s))) := by
  unfold execTick at h
  split at h
  next hrun =>
    split at h
    next => exact absurd h (by simp)
    next h0 =>
      split at h
      next h1 =>
        rw [Host.Outcome.next.injEq] at h
        exact .inr ⟨hrun, h0, .inl ⟨by simp only [countDown_tCnt] at h1; bv_omega, h.symm⟩⟩
      next h1 =>
        rw [Host.Outcome.next.injEq] at h
        exact .inr ⟨hrun, h0, .inr ⟨by simp only [countDown_tCnt] at h1; bv_omega, h.symm⟩⟩
  next hrun =>
    rw [Host.Outcome.next.injEq] at h
    exact .inl ⟨by simpa using hrun, h.symm⟩

/-! ### The address decision -/

/-- Everything the decision on an address byte can do. -/
theorem addressDecide_cases (addr : BitVec 7) (rw : Bool) (s : State) :
    (addressMatches addr = true ∧ rw = true ∧ s.readExpected = true ∧
      addressDecide addr rw s =
        { s with rw := true, readExpected := false, proto := .transmitCheck, sr := 0x00#8, oe := true, bitcnt := 1#4 }) ∨
    (addressMatches addr = true ∧ (rw = false ∨ s.readExpected = false) ∧
      addressDecide addr rw s =
        { s with rw := false, proto := .receiveByte, sr := 0x00#8, oe := true, bitcnt := 1#4 }) ∨
    (addressMatches addr = false ∧
      addressDecide addr rw s = { s with sr := 0xFF#8, oe := true, bitcnt := 1#4, proto := .idlePrep }) := by
  cases hm : addressMatches addr with
  | false => exact .inr (.inr ⟨rfl, by simp [addressDecide, hm, addressMismatch, sendNack, goTo]⟩)
  | true =>
    cases rw with
    | false => exact .inr (.inl ⟨rfl, .inl rfl, by simp [addressDecide, hm, addressMatch, readHonoured, sendAck]⟩)
    | true =>
      cases hr : s.readExpected with
      | false => exact .inr (.inl ⟨rfl, .inr rfl, by simp [addressDecide, hm, addressMatch, readHonoured, hr, sendAck]⟩)
      | true => exact .inl ⟨rfl, rfl, rfl, by simp [addressDecide, hm, addressMatch, readHonoured, hr, sendAck]⟩

/-- The match of R122 in words. -/
theorem addressMatches_iff (addr : BitVec 7) :
    addressMatches addr = true ↔ addr = Config.ownAddr ∨ addr = Config.bcastAddr := by
  simp [addressMatches, matchesEither]

/-! ### Bit and step -/

/-- Everything a clock pulse can do when it goes on. -/
theorem execBit_cases {m : Bool} {s t : State} (h : execBit m s = .next t) :
    (s.bitcnt = 0#4 ∧ t = s) ∨
      (s.bitcnt = 1#4 ∧ shiftDone (shiftBit m s) = .next t) ∨
      (s.bitcnt ≠ 0#4 ∧ s.bitcnt ≠ 1#4 ∧ t = shiftBit m s) := by
  unfold execBit at h
  split at h
  next h0 =>
    rw [Host.Outcome.next.injEq] at h
    exact .inl ⟨h0, h.symm⟩
  next h0 =>
    split at h
    next h1 => exact .inr (.inl ⟨by simp only [shiftBit_bitcnt] at h1; bv_omega, h⟩)
    next h1 =>
      rw [Host.Outcome.next.injEq] at h
      exact .inr (.inr ⟨h0, by simp only [shiftBit_bitcnt] at h1; bv_omega, h.symm⟩)

/-- A clock pulse that is not the last of its shift only shifts. -/
theorem execBit_of_gt {m : Bool} {s : State} (h0 : s.bitcnt ≠ 0#4) (h1 : s.bitcnt ≠ 1#4) :
    execBit m s = .next (shiftBit m s) := by
  have h2 : (shiftBit m s).bitcnt ≠ 0#4 := by simp only [shiftBit_bitcnt]; bv_omega
  unfold execBit
  rw [if_neg h0, if_neg h2]

/-- The last clock pulse of a shift raises SHIFT_DONE. -/
theorem execBit_of_one {m : Bool} {s : State} (h1 : s.bitcnt = 1#4) : execBit m s = shiftDone (shiftBit m s) := by
  simp [execBit, h1, shiftBit]

/-- Everything SHIFT_DONE in ReceiveCheck can do when it goes on. -/
theorem receiveCheck_cases {s t : State} (h : execShiftDoneReceiveCheck s = .next t) :
    (s.rxIndex = 0#4 ∧ t = acknowledge (firstCompletes (firstByte s.sr)) (firstEffect (firstByte s.sr) s)) ∨
      (s.rxIndex ≠ 0#4 ∧ s.rxIndex.toNat ≤ 8 ∧
        t = acknowledge (payloadCompletes s)
          { s with
            staged := s.staged.write s.rxIndex.toNat s.sr
            rxIndex := if s.rxIndex = 8#4 then 8#4 else s.rxIndex + 1#4 }) := by
  unfold execShiftDoneReceiveCheck at h
  split at h
  next h0 =>
    rw [Host.Outcome.next.injEq] at h
    exact .inl ⟨h0, h.symm⟩
  next h0 =>
    split at h
    next u hu =>
      obtain ⟨hle, rfl⟩ := storePayload_cases hu
      rw [Host.Outcome.next.injEq] at h
      exact .inr ⟨h0, hle, h.symm⟩
    next => exact absurd h (by simp)
    next => exact absurd h (by simp)

/-- Everything SHIFT_DONE can do when it goes on, by the protocol state it finds. -/
theorem shiftDone_cases {s t : State} (h : shiftDone s = .next t) :
    (s.proto = .addressWait ∧ t = addressDecide (addrField s.sr) (rwField s.sr) s) ∨
      (s.proto = .idlePrep ∧ t = endSession s) ∨
      (s.proto = .receiveByte ∧ t = goTo .receiveCheck (request 8#4 s)) ∨
      (s.proto = .receiveCheck ∧ execShiftDoneReceiveCheck s = .next t) ∨
      (s.proto = .transmitCheck ∧ t = if masterNack s then endSession s else transmitByte s) ∨
      (s.proto = .waitAck ∧ t = goTo .transmitCheck (request 1#4 s)) := by
  unfold shiftDone at h
  cases hp : s.proto <;> simp only [hp] at h
  · exact absurd h (by simp)
  · exact .inl ⟨rfl, (Host.Outcome.next.inj h).symm⟩
  · exact .inr (.inl ⟨rfl, (Host.Outcome.next.inj h).symm⟩)
  · exact .inr (.inr (.inl ⟨rfl, (Host.Outcome.next.inj h).symm⟩))
  · exact .inr (.inr (.inr (.inl ⟨rfl, h⟩)))
  · exact .inr (.inr (.inr (.inr (.inl ⟨rfl, (Host.Outcome.next.inj h).symm⟩))))
  · exact .inr (.inr (.inr (.inr (.inr ⟨rfl, (Host.Outcome.next.inj h).symm⟩))))

/-- The first data byte has the effect of the instruction it decodes to. -/
theorem exec_firstInstr (f : FirstByte) (s : State) : exec (firstInstr f) s = .next (firstEffect f s) := by
  cases f <;> rfl

/-- What the first data byte can do to the state: the command's registers, the staged bytes and the receive index. -/
theorem firstEffect_frame (f : FirstByte) (s : State) :
    firstEffect f s =
      { s with
        active := (firstEffect f s).active, staged := (firstEffect f s).staged, acc := (firstEffect f s).acc
        tReload := (firstEffect f s).tReload, tCnt := (firstEffect f s).tCnt, tRun := (firstEffect f s).tRun
        drvEn := (firstEffect f s).drvEn, readExpected := (firstEffect f s).readExpected
        rxIndex := (firstEffect f s).rxIndex } := by
  cases f <;> first
    | rfl
    | (simp only [firstEffect, beginMotion]; split <;> rfl)

/-- The instruction a clock pulse completes at the address position. -/
theorem completedInstr_address {m : Bool} {s : State} (h1 : s.bitcnt = 1#4) (hp : s.proto = .addressWait) :
    completedInstr m s = some (addressInstr (shiftBit m s).sr) := by
  simp [completedInstr, h1, receivePosition, hp, decodeBytes]

/-- The instruction a clock pulse completes at the opcode position. -/
theorem completedInstr_first {m : Bool} {s : State} (h1 : s.bitcnt = 1#4) (hp : s.proto = .receiveCheck)
    (h0 : s.rxIndex = 0#4) : completedInstr m s = some (firstInstr (firstByte (shiftBit m s).sr)) := by
  simp [completedInstr, h1, receivePosition, hp, h0, decodeBytes]

/-- The instruction a clock pulse completes at a later payload position. -/
theorem completedInstr_payload {m : Bool} {s : State} (h1 : s.bitcnt = 1#4) (hp : s.proto = .receiveCheck)
    (h0 : s.rxIndex ≠ 0#4) : completedInstr m s = some (.payloadN (shiftBit m s).sr) := by
  simp [completedInstr, h1, receivePosition, hp, h0, decodeBytes]

/-- Everything a step can do when it goes on: nothing, or the next event as the instruction it is. -/
theorem step_cases {s t : State} (h : step s = .next t) :
    (s.inputs = [] ∧ t = s) ∨
      ∃ e rest, s.inputs = e :: rest ∧ exec (eventInstr e) { s with inputs := rest } = .next t := by
  unfold step at h
  split at h
  next hnil =>
    rw [Host.Outcome.next.injEq] at h
    exact .inl ⟨hnil, h.symm⟩
  next e rest hcons => exact .inr ⟨e, rest, hcons, by simpa [popInput, hcons] using h⟩

end Sys2Proof.Machine
end

