-- ==== Sys2Proof/Laws/PerInstr.lean ====
section
/-! SUPPORT. A statement made for every instruction: what it puts on the wire has the width spec/opcode_table.json gives its row
(READ is a byte the block sends, and the events of width 0 put nothing there). -/

namespace Sys2Proof.Laws.EncodedWidth

/-- The bits that stand on the wire. -/
def wireWidth : Wire → Nat
  | .silent => 0
  | .pulse _ => 1
  | .bytes _ bs => 8 * bs.length

/-- The bits of the row that a master puts on the wire (spec/opcode_table.json, column width). -/
def rowWidth : Instr → Nat
  | .enable | .disable | .begin | .pause | .resume | .stop | .readPeriod | .readSteps | .readSettings => 8
  | .payload0 _ | .payloadN _ | .addrW _ | .addrR _ | .controlByte _ _ _ _ => 8
  | .load _ _ _ _ _ _ => 72
  | .bit _ => 1
  | .read | .reset | .tick | .expire | .expireCarry | .expireStep | .start => 0
  | .shiftDoneAddressWait | .shiftDoneIdlePrep | .shiftDoneReceiveByte => 0
  | .shiftDoneReceiveCheck | .shiftDoneTransmitCheck | .shiftDoneWaitAck | .commit => 0

/-- The encoding has the width of the row. -/
def Statement (i : Instr) : Prop := wireWidth (encode i) = rowWidth i

theorem enable : Statement .enable := rfl
theorem disable : Statement .disable := rfl
theorem begin : Statement .begin := rfl
theorem pause : Statement .pause := rfl
theorem resume : Statement .resume := rfl
theorem stop : Statement .stop := rfl
theorem readPeriod : Statement .readPeriod := rfl
theorem readSteps : Statement .readSteps := rfl
theorem readSettings : Statement .readSettings := rfl
theorem payload0 (v : Byte) : Statement (.payload0 v) := rfl
theorem payloadN (v : Byte) : Statement (.payloadN v) := rfl
theorem addrW (addr : BitVec 7) : Statement (.addrW addr) := rfl
theorem addrR (addr : BitVec 7) : Statement (.addrR addr) := rfl
theorem controlByte (r : BitVec 4) (h d : Bool) (m : BitVec 2) : Statement (.controlByte r h d m) := rfl
theorem load (p c : Word) (r : BitVec 4) (h d : Bool) (m : BitVec 2) : Statement (.load p c r h d m) := rfl
theorem read : Statement .read := rfl
theorem reset : Statement .reset := rfl
theorem tick : Statement .tick := rfl
theorem expire : Statement .expire := rfl
theorem expireCarry : Statement .expireCarry := rfl
theorem expireStep : Statement .expireStep := rfl
theorem start : Statement .start := rfl
theorem bit (m : Bool) : Statement (.bit m) := rfl
theorem shiftDoneAddressWait : Statement .shiftDoneAddressWait := rfl
theorem shiftDoneIdlePrep : Statement .shiftDoneIdlePrep := rfl
theorem shiftDoneReceiveByte : Statement .shiftDoneReceiveByte := rfl
theorem shiftDoneReceiveCheck : Statement .shiftDoneReceiveCheck := rfl
theorem shiftDoneTransmitCheck : Statement .shiftDoneTransmitCheck := rfl
theorem shiftDoneWaitAck : Statement .shiftDoneWaitAck := rfl
theorem commit : Statement .commit := rfl

end Sys2Proof.Laws.EncodedWidth
end

