-- ==== Sys2Proof/Tests/Slice0.lean ====
section
/-! SUPPORT. The model's own tests: ill-formed terms refused, words written out from spec/30_encoding.md, single transitions of
spec/95_test_vectors.md, and for each statement with hypotheses a state and operands that meet them. -/

open Sys2Proof Sys2Proof.Machine

namespace Sys2Proof.Tests

/-- The next state, if there is one. -/
def nextOf : Host.Outcome State Fault Refusal → Option State
  | .next t => some t
  | .fault _ => none
  | .refused _ => none

/-- The fault, if there is one. -/
def faultOf : Host.Outcome State Fault Refusal → Option Fault
  | .next _ => none
  | .fault f => some f
  | .refused _ => none

theorem eq_next_of_nextOf {o : Host.Outcome State Fault Refusal} {t : State} (h : nextOf o = some t) : o = .next t := by
  cases o with
  | next u => exact congrArg _ (Option.some.inj h)
  | fault f => exact absurd h (by simp [nextOf])
  | refused r => exact absurd h (by simp [nextOf])

/-! ### Well-formedness -/

theorem test_payload0_opcode_ill_formed : (Instr.payload0 0xA1#8).wellFormed = false := by decide
theorem test_payload0_reserved_ill_formed : (Instr.payload0 0xA6#8).wellFormed = false := by decide
theorem test_load_collision_ill_formed : (Instr.load 0xA1000000#32 1#32 0#4 false false 0#2).wellFormed = false := by decide
theorem test_load_reserved_well_formed : (Instr.load 0xA6000000#32 1#32 0#4 false false 0#2).wellFormed = true := by decide

/-! ### Words written out from spec/30_encoding.md R61 to R64 -/

theorem test_decode_enable : decodeBytes .first [0b10100001#8] = .ok (.enable, []) := rfl
theorem test_decode_disable : decodeBytes .first [0b10100010#8] = .ok (.disable, []) := rfl
theorem test_decode_begin : decodeBytes .first [0b10100011#8] = .ok (.begin, []) := rfl
theorem test_decode_pause : decodeBytes .first [0b10100100#8] = .ok (.pause, []) := rfl
theorem test_decode_resume : decodeBytes .first [0b10100101#8] = .ok (.resume, []) := rfl
theorem test_decode_stop : decodeBytes .first [0b10100110#8] = .ok (.stop, []) := rfl
theorem test_decode_read_period : decodeBytes .first [0b10110001#8] = .ok (.readPeriod, []) := rfl
theorem test_decode_read_steps : decodeBytes .first [0b10110010#8] = .ok (.readSteps, []) := rfl
theorem test_decode_read_settings : decodeBytes .first [0b10110011#8] = .ok (.readSettings, []) := rfl
theorem test_decode_payload0 : decodeBytes .first [0b10110000#8] = .ok (.payload0 0xB0#8, []) := rfl
theorem test_decode_payloadN : decodeBytes .payload [0b10100011#8] = .ok (.payloadN 0xA3#8, []) := rfl
/-- V-FR: the own address 0x10 of the vectors is the byte 0x20. -/
theorem test_decode_addrW : decodeBytes .address [0b00100000#8] = .ok (.addrW 0b0010000#7, []) := rfl
theorem test_decode_addrR : decodeBytes .address [0b00100001#8] = .ok (.addrR 0b0010000#7, []) := rfl
theorem test_decode_control : decodeBytes .control [0b10100111#8] = .ok (.controlByte 0b1010#4 false true 0b11#2, []) := rfl
/-- P2: LOAD 70000, 2, 0x0C on the wire. -/
theorem test_decode_load :
    decodeBytes .block [0x00#8, 0x01#8, 0x11#8, 0x70#8, 0x00#8, 0x00#8, 0x00#8, 0x02#8, 0x0C#8] =
      .ok (.load 70000#32 2#32 0#4 true true 0#2, []) := rfl
/-- V-CMD-13: a block that begins with an implemented opcode is no payload. -/
theorem test_decode_collision :
    decodeBytes .block [0xA1#8, 0#8, 0#8, 0#8, 0#8, 0#8, 0#8, 0x01#8, 0x00#8] = .error .opcodeCollision := rfl
theorem test_decode_truncated : decodeBytes .block [0x00#8, 0x01#8] = .error .truncated := rfl
theorem test_decode_leaves_the_rest : decodeBytes .address [0x20#8, 0xA1#8] = .ok (.addrW 0x10#7, [0xA1#8]) := rfl
theorem test_decode_bit : decodeWire (.pulse true) = .ok (.bit true, []) := rfl
/-- The rows of width 0, and the byte the block sends, put nothing on the wire. -/
theorem test_silent_rows_have_no_word :
    ([.read, .reset, .tick, .expire, .expireCarry, .expireStep, .start, .shiftDoneAddressWait, .shiftDoneIdlePrep,
      .shiftDoneReceiveByte, .shiftDoneReceiveCheck, .shiftDoneTransmitCheck, .shiftDoneWaitAck, .commit] : List Instr).all
        (fun i => decide (encode i = .silent)) = true ∧
    decodeWire .silent = .error .noWord := by decide
theorem test_table_word_enable : decodeTableWord 8 0xA1 = some .enable := by decide
theorem test_table_word_load :
    decodeTableWord 72 0x00011170000000020C = some (.load 70000#32 2#32 0#4 true true 0#2) := by decide

/-! ### Fetch: the word placed by the host's hook is the instruction the next step runs -/

theorem test_fetch_enable : (nextOf (step (State.reset.withFetchWord 8 0xA1))).map (·.drvEn) = some 0b11#2 := by decide
theorem test_fetch_stop_is_payload :
    (nextOf (step (State.reset.withFetchWord 8 0xA6))).map (fun t => (t.staged, t.rxIndex)) = some ([(0, 0xA6#8)], 1#4) := by
  decide
/-- P1: LOAD 1000, 5, 0x00. -/
theorem test_fetch_load :
    (nextOf (step (State.reset.withFetchWord 72 0x000003E80000000500))).map (fun t => (stagedPeriod t, stagedCount t, t.proto)) =
      some (1000#32, 5#32, .idlePrep) := by decide
theorem test_fetch_bit : State.reset.withFetchWord 1 1 = { State.reset with inputs := [.bit true] } := by decide

/-! ### States -/

/-- V-SE-3: one tick before the first step of a motion of 5 steps, 1000 ticks apart. -/
def moving : State :=
  { State.reset with
    active := { period := 1000#32, stepCounter := 5#32, control := 0x00#8 }
    acc := 1000#32, tReload := 1#16, tCnt := 1#16, tRun := true, drvEn := 0b11#2 }

/-- V-CMD-3: 1000 and 5 are staged. -/
def loaded : State :=
  { State.reset with
    active := { period := 0#32, stepCounter := 0#32, control := 0b00000010#8 }
    staged := [(2, 0x03#8), (3, 0xE8#8), (7, 0x05#8)] }

/-- V-CX-1. -/
def turning : State :=
  { State.reset with
    active := { period := 10#32, stepCounter := 1#32, control := 0b00000110#8 }
    staged := [(3, 0x14#8), (7, 0x02#8), (8, 0x0B#8)] }

/-- The last bit of a data byte is about to arrive: the seven bits before it stand in `SR`. -/
def dataBit (sr : Byte) (rx : BitVec 4) : State :=
  { State.reset with proto := .receiveCheck, sr := sr, bitcnt := 1#4, rxIndex := rx }

/-- A byte has been sent and the master is about to answer. -/
def answering (sr : Byte) (tx : BitVec 2) : State :=
  { State.reset with proto := .transmitCheck, rw := true, sr := sr, bitcnt := 1#4, txIndex := tx }

/-! ### Single transitions of spec/95_test_vectors.md -/

/-- V-CMD-1 -/
theorem test_enable : (nextOf (exec .enable State.reset)).map (·.drvEn) = some 0b11#2 := by decide
/-- V-CMD-2 -/
theorem test_disable : (nextOf (exec .disable moving)).map (fun t => (t.drvEn, t.tRun)) = some (0b00#2, true) := by decide
/-- V-CMD-3 -/
theorem test_begin_commits :
    (nextOf (exec .begin loaded)).map (fun t => (t.active, t.staged, t.acc)) =
      some ({ period := 1000#32, stepCounter := 5#32, control := 0b00000010#8 }, [], 1000#32) := by decide
/-- V-CMD-4 -/
theorem test_begin_zero_count :
    (nextOf (exec .begin { moving with staged := [(3, 0x0A#8), (8, 0x0C#8)] })) =
      some { moving with staged := [(3, 0x0A#8), (8, 0x0C#8)] } := by decide
/-- V-CMD-5 -/
theorem test_pause : (nextOf (exec .pause { moving with tCnt := 6#16 })).map (fun t => (t.tRun, t.tCnt)) = some (false, 6#16) := by
  decide
/-- V-CMD-6 -/
theorem test_resume :
    (nextOf (exec .resume { State.reset with tCnt := 6#16, tReload := 10#16, acc := 10#32 })).map
      (fun t => (t.tReload, t.tCnt, t.tRun, t.acc)) = some (1#16, 1#16, true, 10#32) := by decide
/-- V-CMD-7 -/
theorem test_read_steps : (nextOf (exec .readSteps State.reset)).map (·.readExpected) = some true := by decide
/-- V-CMD-9 -/
theorem test_stop : (nextOf (exec .stop State.reset)).map (fun t => (t.staged.read 0, t.rxIndex)) = some (0xA6#8, 1#4) := by decide
/-- V-CMD-10 -/
theorem test_read_period :
    (nextOf (exec .readPeriod State.reset)).map (fun t => (t.staged.read 0, t.readExpected)) = some (0xB1#8, false) := by decide
/-- V-CMD-11 -/
theorem test_read_settings : (nextOf (exec .readSettings State.reset)).map (fun t => t.staged.read 0) = some 0xB3#8 := by decide
/-- V-CMD-12 -/
theorem test_payload0 : (nextOf (exec (.payload0 0x00#8) State.reset)).map (fun t => (t.staged, t.rxIndex)) = some ([], 1#4) := by
  decide
/-- V-CMD-14: an opcode value in a payload position is data. -/
theorem test_payloadN :
    (nextOf (exec (.payloadN 0xA3#8) { State.reset with rxIndex := 1#4 })).map (fun t => (t.staged, t.rxIndex, t.tRun)) =
      some ([(1, 0xA3#8)], 2#4, false) := by decide
/-- V-FR-5: the ninth byte leaves `RX_INDEX` at 8; and the model's own case (log entry 31), `RX_INDEX` 0. -/
theorem test_payloadN_boundaries :
    [8#4, 0#4].map (fun rx => (nextOf (exec (.payloadN 0x09#8) { State.reset with rxIndex := rx })).map
      (fun t => (t.staged, t.rxIndex))) = [some ([(8, 0x09#8)], 8#4), some ([(0, 0x09#8)], 1#4)] := by decide
/-- V-CX-2: the reserved bits are stored. -/
theorem test_control_byte :
    (nextOf (exec (.controlByte 0xF#4 false true 3#2) State.reset)).map stagedControl = some 0xF7#8 := by decide
/-- V-CX-3 -/
theorem test_load :
    (nextOf (exec (.load 0x12345678#32 0x9ABCDEF0#32 0#4 false true 0#2) State.reset)).map
        (fun t => (t.staged.read 0, t.staged.read 3, t.staged.read 4, t.staged.read 7)) =
      some (0x12#8, 0x78#8, 0x9A#8, 0xF0#8) := by decide
/-- V-CMD-13: the payload that collides with ENABLE is lost. -/
theorem test_load_collision :
    (nextOf (exec (.load 0xA1000000#32 1#32 0#4 false false 0#2) State.reset)).map (fun t => (t.drvEn, t.staged)) =
      some (0b11#2, []) := by decide
/-- V-FR-1: the address byte of a write is acknowledged and starts reception. -/
theorem test_addrW :
    (nextOf (exec (.addrW Config.ownAddr) State.reset)).map (fun t => (t.proto, t.sr, t.oe, t.rw)) =
      some (.receiveByte, 0x00#8, true, false) := by
  simp [nextOf, exec, execAddrW, addressDecide, addressMatches, matchesEither, addressMatch, readHonoured, sendAck]
/-- V-FR-7, V-FR-13: an armed read is honoured at either address and spends the arm. -/
theorem test_addrR_armed :
    (nextOf (exec (.addrR Config.bcastAddr) { State.reset with readExpected := true })).map
        (fun t => (t.proto, t.rw, t.readExpected)) = some (.transmitCheck, true, false) := by
  simp [nextOf, exec, execAddrR, addressDecide, addressMatches, matchesEither, addressMatch, readHonoured, sendAck]
/-- V-FR-7: the low byte of 0x128 is 0x28. -/
theorem test_read :
    (nextOf (exec .read { State.reset with active := { period := 0#32, stepCounter := 0x128#32, control := 0#8 }, txIndex := 1#2 })).map
      (fun t => (t.sr, t.txIndex, t.proto)) = some (0x28#8, 2#2, .waitAck) := by decide
/-- V-FR-8: 0x0000012C has the high byte 0x00 or 0x01. -/
theorem test_high_bytes : highByte .msb32 0x12C#32 = 0x00#8 ∧ highByte .hi16 0x12C#32 = 0x01#8 := by decide
/-- Section 7 of spec/10_state.md. -/
theorem test_reset : nextOf (exec .reset moving) = some State.reset := by decide
/-- V-SE-2 -/
theorem test_tick_counts : (nextOf (exec .tick { moving with tCnt := 6#16 })).map (·.tCnt) = some 5#16 := by decide
/-- V-SE-3 -/
theorem test_tick_steps :
    (nextOf (exec .tick moving)).map (fun t => (t.tCnt, t.phase, t.active.control, t.active.stepCounter)) =
      some (1000#16, 0b0101#4, 0b00000011#8, 4#32) := by decide
/-- V-SE-4 -/
theorem test_tick_zero_count : faultOf (exec .tick { moving with tCnt := 0#16 }) = some .zeroTimerCount := by decide
/-- V-SE-5: 65535 is no carry. -/
theorem test_expire_boundary_steps :
    (nextOf (exec .expire { moving with acc := 65535#32 })).map (fun t => (t.tCnt, t.active.stepCounter)) =
      some (65535#16, 4#32) := by decide
/-- V-SE-6: 65536 is one. -/
theorem test_expire_boundary_carries :
    (nextOf (exec .expire { moving with acc := 65536#32 })).map (fun t => (t.tCnt, t.acc, t.active.stepCounter)) =
      some (65535#16, 1#32, 5#32) := by decide
/-- V-SE-8 -/
theorem test_carry : (nextOf (exec .expireCarry { moving with acc := 131070#32 })).map (fun t => (t.tReload, t.acc)) =
    some (65535#16, 65535#32) := by decide
/-- V-SE-10: counter-clockwise from index 3. -/
theorem test_step_wraps_up :
    (nextOf (exec .expireStep { moving with active := { period := 1#32, stepCounter := 9#32, control := 0b00000111#8 } })).map
      (fun t => (t.phase, t.active.control)) = some (0b1001#4, 0b00000100#8) := by decide
/-- V-SE-13, V-SE-14: the driver is let go without hold and kept with it. -/
theorem test_step_completes :
    [0b00000000#8, 0b00001000#8].map (fun c =>
      (nextOf (exec .expireStep { moving with active := { period := 1#32, stepCounter := 1#32, control := c } })).map
        (fun t => (t.active.stepCounter, t.tRun, t.drvEn))) =
      [some (0#32, false, 0b00#2), some (0#32, false, 0b11#2)] := by decide
/-- V-SE-17: a zero count wraps and the motor runs on. -/
theorem test_step_zero_count_wraps :
    (nextOf (exec .expireStep { moving with active := { period := 1#32, stepCounter := 0#32, control := 0#8 } })).map
      (fun t => (t.active.stepCounter, t.tRun)) = some (0xFFFFFFFF#32, true) := by decide
/-- V-BL-2 -/
theorem test_start :
    (nextOf (exec .start { dataBit 0x05#8 1#4 with bitcnt := 5#4 })).map (fun t => (t.proto, t.bitcnt, t.rxIndex, t.sr)) =
      some (.addressWait, 8#4, 0#4, 0x05#8) := by decide
/-- V-BL-5, V-CMD-1: the last bit of 0xA1 at the opcode position is ENABLE, acknowledged. -/
theorem test_bit_completes_a_byte :
    (nextOf (exec (.bit true) (dataBit 0x50#8 0#4))).map (fun t => (t.drvEn, t.proto, t.sr, t.oe, t.bitcnt)) =
      some (0b11#2, .idlePrep, 0x00#8, true, 1#4) := by decide
/-- V-BL-9: another device overrides the block's 1. -/
theorem test_bit_wired_and :
    (nextOf (exec (.bit false) { State.reset with proto := .waitAck, oe := true, sr := 0x80#8, bitcnt := 8#4 })).map
      (fun t => (t.sr, t.bitcnt)) = some (0x00#8, 7#4) := by decide
/-- R122: an address byte whose address is neither of two is no match. -/
theorem test_match : matchesEither 0x10#7 0x00#7 0x11#7 = false ∧ matchesEither 0x10#7 0x00#7 0x00#7 = true := by decide
/-- R122, R61: the own address with R/W = 0 in `SR`. -/
theorem test_shift_done_address_wait :
    (nextOf (exec .shiftDoneAddressWait { State.reset with proto := .addressWait, sr := addressByte Config.ownAddr false })).map
      (fun t => (t.proto, t.oe)) = some (.receiveByte, true) := by
  simp [nextOf, exec, execShiftDoneAddressWait, addressByte_fields, addressDecide, addressMatches, matchesEither, addressMatch,
    readHonoured, sendAck]
/-- R125 -/
theorem test_shift_done_idle_prep :
    (nextOf (exec .shiftDoneIdlePrep { State.reset with proto := .idlePrep, rxIndex := 8#4, oe := true })).map
      (fun t => (t.proto, t.rxIndex, t.oe)) = some (.idle, 0#4, false) := by decide
/-- V-BL-12, R126 -/
theorem test_shift_done_receive_byte :
    (nextOf (exec .shiftDoneReceiveByte { State.reset with proto := .receiveByte, sr := 0x5A#8, oe := true })).map
      (fun t => (t.proto, t.bitcnt, t.oe, t.sr)) = some (.receiveCheck, 8#4, false, 0x5A#8) := by decide
/-- V-CMD-9: a reserved opcode is acknowledged and more may follow. -/
theorem test_shift_done_receive_check_reserved :
    (nextOf (exec .shiftDoneReceiveCheck (dataBit 0xA6#8 0#4))).map (fun t => (t.proto, t.staged, t.rxIndex)) =
      some (.receiveByte, [(0, 0xA6#8)], 1#4) := by decide
/-- V-FR-5: the ninth byte completes the write. -/
theorem test_shift_done_receive_check_ninth :
    (nextOf (exec .shiftDoneReceiveCheck (dataBit 0x09#8 8#4))).map (fun t => (t.proto, t.staged)) =
      some (.idlePrep, [(8, 0x09#8)]) := by decide
/-- V-FR-9: a NACK after the first byte ends the read. -/
theorem test_shift_done_transmit_check_nack :
    (nextOf (exec .shiftDoneTransmitCheck (answering 0x01#8 1#2))).map (·.proto) = some .idle := by decide
/-- V-FR-8: an ACK asks for the next byte. -/
theorem test_shift_done_transmit_check_ack :
    (nextOf (exec .shiftDoneTransmitCheck (answering 0x58#8 2#2))).map (fun t => (t.proto, t.sr, t.txIndex)) =
      some (.waitAck, 0x00#8, 2#2) := by decide
/-- R131 -/
theorem test_shift_done_wait_ack :
    (nextOf (exec .shiftDoneWaitAck { State.reset with proto := .waitAck, oe := true, txIndex := 1#2 })).map
      (fun t => (t.proto, t.bitcnt, t.oe)) = some (.transmitCheck, 1#4, false) := by decide
/-- V-CX-1 -/
theorem test_commit :
    (nextOf (exec .commit turning)).map (fun t => (t.active, t.staged)) =
      some ({ period := 20#32, stepCounter := 2#32, control := 0b00001010#8 }, []) := by decide
/-- V-CX-5: nothing is left to commit a second time. -/
theorem test_commit_twice : nextOf (exec .commit moving) = some moving := by decide
/-- V-SE-12: the phase ROM. -/
theorem test_phase_rom : [0#2, 1#2, 2#2, 3#2].map phaseRom = [0b0101#4, 0b0110#4, 0b1010#4, 0b1001#4] := by decide

/-! ### Hypotheses that can be met -/

theorem witness_quiet : State.reset.tRun = false ∧ State.reset.bitcnt = 0#4 := by decide

theorem witness_begin_commits :
    be32 (loaded.staged.read 4) (loaded.staged.read 5) (loaded.staged.read 6) (loaded.staged.read 7) ≠ 0#32 := by decide

theorem witness_begin_does_nothing :
    be32 (moving.staged.read 4) (moving.staged.read 5) (moving.staged.read 6) (moving.staged.read 7) = 0#32 := by decide

theorem witness_staged_canonical : Memory.wf turning.staged = true := by decide

theorem witness_payload_boundaries :
    (dataBit 0#8 0#4).rxIndex.toNat ≤ 8 ∧ (dataBit 0#8 8#4).rxIndex.toNat ≤ 8 ∧ 8 < (dataBit 0#8 9#4).rxIndex.toNat ∧
      Memory.wf (dataBit 0#8 8#4).staged = true := by decide

theorem witness_load :
    Memory.wf turning.staged = true ∧ (Instr.load 1000#32 5#32 0#4 false false 0#2).wellFormed = true := by decide

theorem witness_colliding_load : (Instr.load 0xB2FFFFFF#32 5#32 0#4 false false 0#2).wellFormed = false := by decide

theorem witness_matching_address :
    (Config.ownAddr = Config.ownAddr ∨ Config.ownAddr = Config.bcastAddr) ∧
      State.reset.readExpected = false ∧ ({ State.reset with readExpected := true } : State).readExpected = true :=
  ⟨.inl rfl, rfl, rfl⟩

/-- Three addresses are more than two, so one of them is no match. -/
theorem witness_mismatching_address : ∃ a ∈ [0x10#7, 0x11#7, 0x12#7], a ≠ Config.ownAddr ∧ a ≠ Config.bcastAddr := by
  by_cases h0 : 0x10#7 = Config.ownAddr ∨ 0x10#7 = Config.bcastAddr
  · by_cases h1 : 0x11#7 = Config.ownAddr ∨ 0x11#7 = Config.bcastAddr
    · refine ⟨0x12#7, by simp, ?_⟩
      rcases h0 with h0 | h0 <;> rcases h1 with h1 | h1
      · exact absurd (h0.trans h1.symm) (by decide)
      · exact ⟨h0 ▸ by decide, h1 ▸ by decide⟩
      · exact ⟨h1 ▸ by decide, h0 ▸ by decide⟩
      · exact absurd (h0.trans h1.symm) (by decide)
    · exact ⟨0x11#7, by simp, not_or.1 h1⟩
  · exact ⟨0x10#7, by simp, not_or.1 h0⟩

theorem witness_telemetry_tail : (2 : Nat) ≤ 2 ∧ telemetryByte 0xFFFFFFFF#32 2 = 0x00#8 := by decide

theorem witness_tick_counts : moving.tRun = true ∧ moving.tCnt = 1#16 ∧ 1 < ({ moving with tCnt := 2#16 } : State).tCnt.toNat := by
  decide

theorem witness_tick_faults :
    ({ moving with tCnt := 0#16 } : State).tRun = true ∧ ({ moving with tCnt := 0#16 } : State).tCnt = 0#16 := by decide

theorem witness_expire_boundaries :
    65535 < ({ moving with acc := 65536#32 } : State).acc.toNat ∧ ({ moving with acc := 65535#32 } : State).acc.toNat ≤ 65535 := by
  decide

theorem witness_directions : turning.active.control.getLsbD 2 = true ∧ moving.active.control.getLsbD 2 = false := by decide

theorem witness_pulse_shifts : 1 < ({ dataBit 0#8 0#4 with bitcnt := 2#4 } : State).bitcnt.toNat := by decide

theorem witness_last_pulse :
    [ProtoState.addressWait, .idlePrep, .receiveByte, .receiveCheck, .transmitCheck, .waitAck].all
      (fun p => decide (({ State.reset with bitcnt := 1#4, proto := p } : State).bitcnt = 1#4) &&
        decide (({ State.reset with bitcnt := 1#4, proto := p } : State).proto = p)) = true := by decide

theorem witness_unreachable_cases :
    ({ State.reset with bitcnt := 1#4 } : State).bitcnt = 1#4 ∧ ({ State.reset with bitcnt := 1#4 } : State).proto = .idle ∧
      8 < ({ State.reset with rxIndex := 9#4 } : State).rxIndex.toNat := by decide

theorem witness_receive_check :
    (dataBit 0#8 0#4).rxIndex = 0#4 ∧ (dataBit 0#8 1#4).rxIndex ≠ 0#4 ∧ (dataBit 0#8 8#4).rxIndex ≠ 0#4 ∧
      (dataBit 0#8 8#4).rxIndex.toNat ≤ 8 := by decide

theorem witness_transmit_check :
    ((answering 0x01#8 1#2).txIndex ≠ 0#2 ∧ (answering 0x01#8 1#2).sr.getLsbD 0 = true) ∧
      ¬ ((answering 0x01#8 0#2).txIndex ≠ 0#2 ∧ (answering 0x01#8 0#2).sr.getLsbD 0 = true) ∧
      ¬ ((answering 0x00#8 1#2).txIndex ≠ 0#2 ∧ (answering 0x00#8 1#2).sr.getLsbD 0 = true) := by decide

theorem witness_address_wait :
    ({ State.reset with sr := 0x20#8 } : State).sr.getLsbD 0 = false ∧
      ({ State.reset with sr := 0x21#8 } : State).sr.getLsbD 0 = true := by decide

theorem witness_step_runs :
    ({ State.reset with inputs := [.tick, .start] } : State).inputs = .tick :: [.start] ∧ State.reset.inputs = [] := by decide

theorem witness_completed_data :
    ({ dataBit 0x50#8 0#4 with inputs := [.bit true] } : State).inputs = .bit true :: [] ∧
      ({ dataBit 0x50#8 0#4 with inputs := [.bit true] } : State).rxIndex.toNat ≤ 8 ∧
      completedInstr true { dataBit 0x50#8 0#4 with inputs := [.bit true] } = some .enable := by decide

theorem witness_completed_address :
    completedInstr false { State.reset with proto := .addressWait, sr := 0x10#8, bitcnt := 1#4, inputs := [.bit false] } =
      some (.addrW 0x10#7) := by decide

theorem witness_encode :
    (Instr.load 1000#32 5#32 0xF#4 true true 3#2).wellFormed = true ∧
      encode (.load 1000#32 5#32 0xF#4 true true 3#2) ≠ .silent := by decide

theorem witness_every_byte :
    Position.first ≠ .block ∧ implementedOpcodes.contains 0xA1#8 = true ∧ implementedOpcodes.contains 0xA6#8 = false := by decide

/-- `moving` meets every invariant, and a step is about to be taken. -/
theorem witness_invariants :
    ({ moving with inputs := [.tick] } : State).Inv ∧ MotionInv { moving with inputs := [.tick] } ∧
      (nextOf (step { moving with inputs := [.tick] })).isSome = true := by decide

/-- The same in mid-transaction: the last bit of an opcode. -/
theorem witness_invariants_on_the_bus :
    ({ dataBit 0x50#8 0#4 with inputs := [.bit true] } : State).Inv ∧
      (nextOf (step { dataBit 0x50#8 0#4 with inputs := [.bit true] })).isSome = true := by decide

/-- The stop: a zero period, the timer running at zero. -/
theorem witness_zero_period_stops :
    ({ State.reset with tRun := true, inputs := [.tick] } : State).Inv ∧
      faultOf (step { State.reset with tRun := true, inputs := [.tick] }) = some .zeroTimerCount := by decide

/-- The last bit of ENABLE. -/
theorem witness_hazard_free :
    ({ dataBit 0x50#8 0#4 with inputs := [.bit true] } : State).Inv ∧
      MotionInv { dataBit 0x50#8 0#4 with inputs := [.bit true] } ∧
      eventHazard (.bit true) { dataBit 0x50#8 0#4 with inputs := [.bit true] } = none := by decide

/-- The last bit of the reserved opcode 0xA6 is neither U2 nor U4. -/
theorem witness_reserved_opcode_step :
    ({ dataBit 0x53#8 0#4 with inputs := [.bit false] } : State).Inv ∧
      MotionInv { dataBit 0x53#8 0#4 with inputs := [.bit false] } ∧
      eventHazard (.bit false) { dataBit 0x53#8 0#4 with inputs := [.bit false] } ≠ some .zeroPeriod ∧
      eventHazard (.bit false) { dataBit 0x53#8 0#4 with inputs := [.bit false] } ≠ some .resumeAtZero := by decide

/-- The last bit of an un-armed read at the own address is U9. -/
theorem witness_unarmed_read_step :
    instrHazard (.addrR Config.ownAddr) State.reset = some .unarmedRead := by
  simp [instrHazard, addressMatches, matchesEither, State.reset]

theorem witness_hazard : eventHazard (.bit false) (dataBit 0x53#8 0#4) = some .reservedOpcode := by decide

theorem witness_bus_events :
    (nextOf (exec .start moving)).isSome = true ∧ (nextOf (exec (.bit true) (dataBit 0x50#8 0#4))).isSome = true := by decide

theorem witness_enable_asserts :
    (dataBit 0x50#8 0#4).drvEn ≠ 0b11#2 ∧ (nextOf (exec (.bit true) (dataBit 0x50#8 0#4))).map (·.drvEn) = some 0b11#2 := by decide

/-- The last bit of BEGIN with 1000 and 5 staged changes the period. -/
theorem witness_begin_replaces :
    (nextOf (exec (.bit true) { loaded with proto := .receiveCheck, sr := 0x51#8, bitcnt := 1#4 })).map (·.active.period) =
      some 1000#32 ∧ loaded.active.period ≠ 1000#32 := by decide

/-- The last bit of READ_STEPS sets the arm; RESET clears it. -/
theorem witness_arm_changes :
    (dataBit 0x59#8 0#4).readExpected = false ∧
      (nextOf (exec (.bit false) (dataBit 0x59#8 0#4))).map (·.readExpected) = some true ∧
      (nextOf (exec .reset { State.reset with readExpected := true })).map (·.readExpected) = some false := by decide

theorem witness_staged_changes :
    (nextOf (exec (.bit true) (dataBit 0x55#8 3#4))).map (·.staged) = some [(3, 0xAB#8)] ∧ (dataBit 0x55#8 3#4).staged = [] := by
  decide

/-- Another state with the same motion. -/
theorem witness_same_motion :
    (nextOf (exec .tick moving)).isSome = true ∧
      motionView { moving with sr := 0x5A#8, proto := .waitAck } = motionView moving ∧
      ({ moving with sr := 0x5A#8, proto := .waitAck } : State) ≠ moving := by decide

theorem witness_other_traffic :
    (nextOf (exec (.bit false) (dataBit 0x59#8 0#4))).isSome = true ∧
      completedInstr false (dataBit 0x59#8 0#4) = some .readSteps := by decide

/-- One tick before a step; and one tick before a carry, with 65536 ticks to go. -/
theorem witness_ticks_to_step :
    moving.tRun = true ∧ moving.tCnt ≠ 0#16 ∧ moving.acc ≠ 0#32 ∧ ticksToStep moving = 1 ∧
      ticksToStep { moving with acc := 65536#32 } = 65536 := by decide

theorem witness_period_exactness :
    TimerInv moving ∧ moving.tRun = true ∧ moving.active.period ≠ 0#32 ∧ ticksToStep moving = 1 ∧
      moving.active.stepCounter ≠ 1#32 := by decide

theorem witness_begun_motion :
    stagedCount loaded ≠ 0#32 ∧ stagedPeriod loaded ≠ 0#32 ∧ (nextOf (exec .begin loaded)).isSome = true := by decide

theorem witness_receive_byte :
    ({ State.reset with bitcnt := 8#4, proto := .receiveCheck } : State).bitcnt = 8#4 ∧
      ({ State.reset with bitcnt := 8#4, proto := .receiveCheck } : State).oe = false := by decide

theorem witness_send_byte :
    ({ State.reset with bitcnt := 8#4, oe := true, proto := .waitAck, sr := 0x28#8 } : State).bitcnt = 8#4 ∧
      ({ State.reset with bitcnt := 8#4, oe := true, proto := .waitAck, sr := 0x28#8 } : State).oe = true ∧
      ({ State.reset with bitcnt := 8#4, oe := true, proto := .waitAck, sr := 0x28#8 } : State).proto = .waitAck := by decide

theorem witness_command_transaction :
    (Config.ownAddr = Config.ownAddr ∨ Config.ownAddr = Config.bcastAddr) ∧ implementedOpcodes.contains 0xB2#8 = true :=
  ⟨.inl rfl, by decide⟩

theorem witness_armed_read :
    (Config.bcastAddr = Config.ownAddr ∨ Config.bcastAddr = Config.bcastAddr) ∧
      ({ moving with readExpected := true } : State).readExpected = true := ⟨.inr rfl, rfl⟩

end Sys2Proof.Tests
end

section
/-! PROOFS. Transmission (spec/42_i2c_framing.md section 5): what READ sends and what it leaves unchanged. -/

namespace Sys2Proof.Machine

/-- READ is `transmit_byte()` in every state and never stops (R130). -/
theorem exec_read (s : State) : exec .read s = .next (transmitByte s) := rfl

/-- `transmit_byte()` in one record: the registers R130 writes, every other one kept. -/
theorem transmitByte_eq (s : State) :
    transmitByte s =
      { s with
        sr := telemetryByte s.active.stepCounter s.txIndex.toNat
        oe := true
        bitcnt := 8#4
        txIndex := nextTxIndex s.txIndex
        proto := .waitAck } := rfl

/-- Settles O16: READ is `transmitByte`, whose record is the one stated, with the saturating index by its definition. -/
theorem readSendsTheLiveCounterByte : Obligations.ReadSendsTheLiveCounterByte := by
  intro s
  rw [exec_read, transmitByte_eq, nextTxIndex]

end Sys2Proof.Machine
end

section
/-! PROOFS. The wire commands ENABLE, DISABLE, BEGIN and PAUSE (spec/43_commands.md sections 2 and 3): what each writes and what
it leaves unchanged. -/

namespace Sys2Proof.Machine

/-! ### The drive enable and the timer run bit -/

/-- ENABLE never stops and is `ENABLE()` (R151). -/
theorem exec_enable (s : State) : exec .enable s = .next (enableDriver s) := rfl

/-- DISABLE never stops and is `DISABLE()` (R152). -/
theorem exec_disable (s : State) : exec .disable s = .next (disableDriver s) := rfl

/-- PAUSE never stops and is `PAUSE()` (R154). -/
theorem exec_pause (s : State) : exec .pause s = .next (pauseMotion s) := rfl

/-- Settles O3: each of the two commands is its own effect, a record update of `DRV_EN` alone. -/
theorem driverCommandsWriteOnlyDrvEn : Obligations.DriverCommandsWriteOnlyDrvEn := by
  intro s
  constructor
  · rw [exec_enable, enableDriver]
  · rw [exec_disable, disableDriver]

/-- Settles O5: PAUSE is its own effect, a record update of `T_RUN` alone. -/
theorem pauseOnlyStopsTheTimer : Obligations.PauseOnlyStopsTheTimer := by
  intro s
  rw [exec_pause, pauseMotion]

/-! ### The commit and the forced expiry -/

/-- BEGIN never stops and is `BEGIN()` (R153). -/
theorem exec_begin (s : State) : exec .begin s = .next (beginMotion s) := rfl

/-- The staged block is ready to be committed when its count is not zero (R153, R180). -/
theorem stagedReady_iff (s : State) : stagedReady s = true ↔ stagedCount s ≠ 0#32 := by
  simp [stagedReady]

/-- The three actions of a BEGIN that commits, composed: `ACC` is loaded from the period just committed, which is the staged one. -/
theorem beginMotion_of_ne {s : State} (h : stagedCount s ≠ 0#32) :
    beginMotion s =
      { s with
        active :=
          { period := stagedPeriod s
            stepCounter := stagedCount s
            control := withModeIndex (stagedControl s) (modeIndex s) }
        staged := []
        acc := stagedPeriod s
        tReload := 1#16
        tCnt := 1#16
        tRun := true } := by
  rw [beginMotion, if_pos ((stagedReady_iff s).mpr h)]
  rfl

/-- With a zero staged count BEGIN does nothing (R153, R184). -/
theorem beginMotion_of_zero {s : State} (h : stagedCount s = 0#32) : beginMotion s = s := by
  rw [beginMotion, if_neg fun hready => (stagedReady_iff s).mp hready h]

/-- Settles O4: the test of R153 splits BEGIN into the committing case, whose record is the one stated once the staged views and
the kept mode index are spelt out byte by byte, and the case that does nothing. -/
theorem beginCommitsAndArmsOrDoesNothing : Obligations.BeginCommitsAndArmsOrDoesNothing := by
  intro s
  rw [exec_begin]
  constructor
  · intro hcount
    rw [beginMotion_of_ne hcount, stagedPeriod, stagedCount, stagedControl, withModeIndex, modeIndex, modeIndexField]
  · intro hcount
    rw [beginMotion_of_zero hcount]

end Sys2Proof.Machine
end

section
/-! PROOFS. What each event of the environment can do: the equations of TICK and BIT case by case, the list of everything that each of
the two can do, and the one case analysis of a step behind every invariant. -/

namespace Sys2Proof.Machine

/-! ### The dispatch -/

theorem exec_tick (s : State) : exec .tick s = execTick s := rfl
theorem exec_bit (m : Bool) (s : State) : exec (.bit m) s = execBit m s := rfl
theorem exec_start (s : State) : exec .start s = .next (startSession s) := rfl
theorem exec_reset (s : State) : exec .reset s = .next (takeReset s) := rfl

/-! ### TICK -/

/-- A TICK with the timer stopped changes nothing (R80). -/
theorem execTick_of_stopped {s : State} (hrun : s.tRun = false) : execTick s = .next s := by
  simp [execTick, hrun]

/-- A running timer with a zero count is the fault U2 (R80). -/
theorem execTick_of_zero {s : State} (hrun : s.tRun = true) (hcnt : s.tCnt = 0#16) :
    execTick s = .fault .zeroTimerCount := by
  simp [execTick, hrun, hcnt]

/-- Above 1 a running timer counts down (R80). -/
theorem execTick_of_gt_one {s : State} (hrun : s.tRun = true) (hcnt : 1 < s.tCnt.toNat) :
    execTick s = .next (countDown s) := by
  have h0 : s.tCnt ≠ 0#16 := by bv_omega
  have h1 : (countDown s).tCnt ≠ 0#16 := by rw [countDown_tCnt]; bv_omega
  rw [execTick, if_pos hrun, if_neg h0, if_neg h1]

/-- The count of 1 goes down to 0. -/
theorem countDown_of_one {s : State} (hcnt : s.tCnt = 1#16) : countDown s = { s with tCnt := 0#16 } := by
  rw [countDown, hcnt]
  rfl

/-- At 1 a running timer expires (R80). -/
theorem execTick_of_one {s : State} (hrun : s.tRun = true) (hcnt : s.tCnt = 1#16) :
    execTick s = .next (expireTimer (countDown s)) := by
  have h0 : s.tCnt ≠ 0#16 := by rw [hcnt]; decide
  have h1 : (countDown s).tCnt = 0#16 := by rw [countDown_of_one hcnt]
  rw [execTick, if_pos hrun, if_neg h0, if_pos h1]

/-- Above `TIMER_MAX` the expiry is a carry (R81). -/
theorem expireTimer_of_gt {s : State} (hacc : 65535 < s.acc.toNat) : expireTimer s = carry s := by
  simp [expireTimer, accExceedsTimer, hacc]

/-- At or below `TIMER_MAX` the expiry is a step (R81). -/
theorem expireTimer_of_le {s : State} (hacc : s.acc.toNat ≤ 65535) : expireTimer s = stepMotor s := by
  simp [expireTimer, accExceedsTimer, Nat.not_lt.mpr hacc]

/-- Everything a TICK can do when it goes on (R80, R81). -/
inductive TickEffect (s : State) : State → Prop
  | stopped (hrun : s.tRun = false) : TickEffect s s
  | counted (hrun : s.tRun = true) (hcnt : 1 < s.tCnt.toNat) : TickEffect s (countDown s)
  | carried (hrun : s.tRun = true) (hcnt : s.tCnt = 1#16) (hacc : 65535 < s.acc.toNat) :
      TickEffect s (carry (countDown s))
  | stepped (hrun : s.tRun = true) (hcnt : s.tCnt = 1#16) (hacc : s.acc.toNat ≤ 65535) :
      TickEffect s (stepMotor (countDown s))

/-- The list is complete and nothing on it is idle: TICK goes on exactly as listed. -/
theorem execTick_eq_next_iff {s t : State} : execTick s = .next t ↔ TickEffect s t := by
  constructor
  · intro h
    rcases execTick_cases h with ⟨hrun, rfl⟩ | ⟨hrun, h0, ⟨hcnt, -⟩ | ⟨h1, rfl⟩⟩
    · exact .stopped hrun
    · rw [execTick_of_one hrun hcnt, Host.Outcome.next.injEq] at h
      subst h
      rcases Nat.lt_or_ge 65535 s.acc.toNat with hacc | hacc
      · rw [expireTimer_of_gt (s := countDown s) hacc]
        exact .carried hrun hcnt hacc
      · rw [expireTimer_of_le (s := countDown s) hacc]
        exact .stepped hrun hcnt hacc
    · exact .counted hrun (by bv_omega)
  · intro h
    cases h with
    | stopped hrun => exact execTick_of_stopped hrun
    | counted hrun hcnt => exact execTick_of_gt_one hrun hcnt
    | carried hrun hcnt hacc => rw [execTick_of_one hrun hcnt, expireTimer_of_gt (s := countDown s) hacc]
    | stepped hrun hcnt hacc => rw [execTick_of_one hrun hcnt, expireTimer_of_le (s := countDown s) hacc]

/-- A TICK leaves everything but the motion alone. -/
theorem TickEffect.session {s t : State} (h : TickEffect s t) :
    t = { s with
          active := t.active, acc := t.acc, tReload := t.tReload, tCnt := t.tCnt, tRun := t.tRun,
          phase := t.phase, drvEn := t.drvEn } := by
  cases h with
  | stopped => rfl
  | counted => rfl
  | carried => rfl
  | stepped => exact stepMotor_session _

/-! ### BIT -/

/-- Everything a clock pulse can do when it goes on (R104, R105 and the table of R120). -/
inductive PulseEffect (m : Bool) (s : State) : State → Prop
  | ignored (h0 : s.bitcnt = 0#4) : PulseEffect m s s
  | shifted (h0 : s.bitcnt ≠ 0#4) (h1 : s.bitcnt ≠ 1#4) : PulseEffect m s (shiftBit m s)
  | address (h1 : s.bitcnt = 1#4) (hp : s.proto = .addressWait) :
      PulseEffect m s (addressDecide (addrField (shiftBit m s).sr) (rwField (shiftBit m s).sr) (shiftBit m s))
  | sessionEnd (h1 : s.bitcnt = 1#4) (hp : s.proto = .idlePrep) : PulseEffect m s (endSession (shiftBit m s))
  | byteAwaited (h1 : s.bitcnt = 1#4) (hp : s.proto = .receiveByte) :
      PulseEffect m s (goTo .receiveCheck (request 8#4 (shiftBit m s)))
  | first (h1 : s.bitcnt = 1#4) (hp : s.proto = .receiveCheck) (hrx : s.rxIndex = 0#4) :
      PulseEffect m s
        (acknowledge (firstCompletes (firstByte (shiftBit m s).sr))
          (firstEffect (firstByte (shiftBit m s).sr) (shiftBit m s)))
  | payload (h1 : s.bitcnt = 1#4) (hp : s.proto = .receiveCheck) (hrx : s.rxIndex ≠ 0#4) (hle : s.rxIndex.toNat ≤ 8) :
      PulseEffect m s
        (acknowledge (payloadCompletes s)
          { shiftBit m s with
            staged := s.staged.write s.rxIndex.toNat (shiftBit m s).sr
            rxIndex := if s.rxIndex = 8#4 then 8#4 else s.rxIndex + 1#4 })
  | nacked (h1 : s.bitcnt = 1#4) (hp : s.proto = .transmitCheck) (hnack : masterNack (shiftBit m s) = true) :
      PulseEffect m s (endSession (shiftBit m s))
  | sent (h1 : s.bitcnt = 1#4) (hp : s.proto = .transmitCheck) (hnack : masterNack (shiftBit m s) = false) :
      PulseEffect m s (transmitByte (shiftBit m s))
  | answerAwaited (h1 : s.bitcnt = 1#4) (hp : s.proto = .waitAck) :
      PulseEffect m s (goTo .transmitCheck (request 1#4 (shiftBit m s)))

/-- The list is complete. -/
theorem pulseEffect_of_execBit {m : Bool} {s t : State} (h : execBit m s = .next t) : PulseEffect m s t := by
  rcases execBit_cases h with ⟨h0, rfl⟩ | ⟨h1, hdone⟩ | ⟨h0, h1, rfl⟩
  · exact .ignored h0
  · rcases shiftDone_cases hdone with
      ⟨hp, rfl⟩ | ⟨hp, rfl⟩ | ⟨hp, rfl⟩ | ⟨hp, hcheck⟩ | ⟨hp, rfl⟩ | ⟨hp, rfl⟩
    · exact .address h1 hp
    · exact .sessionEnd h1 hp
    · exact .byteAwaited h1 hp
    · rcases receiveCheck_cases hcheck with ⟨hrx, rfl⟩ | ⟨hrx, hle, rfl⟩
      · exact .first h1 hp hrx
      · exact .payload h1 hp hrx hle
    · cases hnack : masterNack (shiftBit m s) with
      | true => exact .nacked h1 hp hnack
      | false => exact .sent h1 hp hnack
    · exact .answerAwaited h1 hp
  · exact .shifted h0 h1

/-! ### Events and steps -/

/-- Everything an event can do when it goes on. -/
inductive EventEffect (s : State) : Event → State → Prop
  | reset : EventEffect s .reset (takeReset s)
  | tick {t : State} (h : TickEffect s t) : EventEffect s .tick t
  | start : EventEffect s .start (startSession s)
  | bit {m : Bool} {t : State} (h : PulseEffect m s t) : EventEffect s (.bit m) t

/-- The list is complete. -/
theorem eventEffect_of_exec {e : Event} {s t : State} (h : exec (eventInstr e) s = .next t) : EventEffect s e t := by
  cases e with
  | reset =>
    obtain rfl : takeReset s = t := Host.Outcome.next.inj h
    exact .reset
  | tick => exact .tick (execTick_eq_next_iff.1 h)
  | start =>
    obtain rfl : startSession s = t := Host.Outcome.next.inj h
    exact .start
  | bit m => exact .bit (pulseEffect_of_execBit h)

/-- What holds of a state whatever events are waiting, and is kept by the effect of every event, is kept by a step. -/
theorem step_keeps {P : State → Prop} (hinputs : ∀ s rest, P s → P { s with inputs := rest })
    (hevent : ∀ s e t, P s → EventEffect s e t → P t) {s t : State} (hs : P s) (h : step s = .next t) : P t := by
  rcases step_cases h with ⟨-, rfl⟩ | ⟨e, rest, -, hexec⟩
  · exact hs
  · exact hevent _ _ _ (hinputs s rest hs) (eventEffect_of_exec hexec)

end Sys2Proof.Machine
end

section
/-! PROOFS. What a clock pulse can do outside the session registers: only the byte it completes reaches the motion, the staged bytes or
the read arm, and a first data byte does to them what its command does. -/

namespace Sys2Proof.Machine

/-- Two states have the same motion when the seven motion registers are equal. -/
theorem motionView_eq_iff {s t : State} :
    motionView t = motionView s ↔
      t.active = s.active ∧ t.acc = s.acc ∧ t.tReload = s.tReload ∧ t.tCnt = s.tCnt ∧ t.tRun = s.tRun ∧
        t.phase = s.phase ∧ t.drvEn = s.drvEn := by
  simp [motionView]

/-- The decision on an address byte writes session registers and the read arm alone (R123, R124). -/
theorem addressDecide_frame (addr : BitVec 7) (rw : Bool) (s : State) :
    addressDecide addr rw s =
      { s with
        rw := (addressDecide addr rw s).rw, readExpected := (addressDecide addr rw s).readExpected
        proto := (addressDecide addr rw s).proto, sr := (addressDecide addr rw s).sr
        oe := (addressDecide addr rw s).oe, bitcnt := (addressDecide addr rw s).bitcnt } := by
  rcases addressDecide_cases addr rw s with ⟨-, -, -, h⟩ | ⟨-, -, h⟩ | ⟨-, h⟩ <;> rw [h]

@[simp] theorem addressDecide_motionView (addr : BitVec 7) (rw : Bool) (s : State) :
    motionView (addressDecide addr rw s) = motionView s := by
  rw [addressDecide_frame]
  rfl

@[simp] theorem addressDecide_staged (addr : BitVec 7) (rw : Bool) (s : State) :
    (addressDecide addr rw s).staged = s.staged := by
  rw [addressDecide_frame]

/-- The decision on an address byte keeps the read arm, or spends it on a read at an own address. -/
theorem addressDecide_readExpected (addr : BitVec 7) (rw : Bool) (s : State) :
    (addressDecide addr rw s).readExpected = s.readExpected ∨
      (rw = true ∧ addressMatches addr = true ∧ (addressDecide addr rw s).readExpected = false) := by
  rcases addressDecide_cases addr rw s with ⟨hm, hrw, -, h⟩ | ⟨-, -, h⟩ | ⟨-, h⟩
  · exact .inr ⟨hrw, hm, by rw [h]⟩
  · exact .inl (by rw [h])
  · exact .inl (by rw [h])

/-- What a command does does not depend on the shift register or the bit count. -/
theorem firstEffect_shiftBit (f : FirstByte) (m : Bool) (s : State) :
    firstEffect f (shiftBit m s) =
      { firstEffect f s with sr := (shiftBit m s).sr, bitcnt := (shiftBit m s).bitcnt } := by
  cases f with
  | begin =>
    by_cases hcount : stagedCount s = 0#32
    · rw [firstEffect, firstEffect, beginMotion_of_zero hcount, beginMotion_of_zero (s := shiftBit m s) hcount]
      rfl
    · rw [firstEffect, firstEffect, beginMotion_of_ne hcount, beginMotion_of_ne (s := shiftBit m s) hcount]
      rfl
  | enable | disable | pause | resume | stop | readPeriod | readSteps | readSettings | payload => rfl

/-- What a clock pulse can do to the motion, the staged bytes and the read arm. -/
inductive WireEffect (m : Bool) (s t : State) : Prop
  | none (hmotion : motionView t = motionView s) (hstaged : t.staged = s.staged)
      (harm : t.readExpected = s.readExpected)
  | command (f : FirstByte) (hi : completedInstr m s = some (firstInstr f))
      (hmotion : motionView t = motionView (firstEffect f s)) (hstaged : t.staged = (firstEffect f s).staged)
      (harm : t.readExpected = (firstEffect f s).readExpected)
  | payload (v : Byte) (hi : completedInstr m s = some (.payloadN v)) (hle : s.rxIndex.toNat ≤ 8)
      (hmotion : motionView t = motionView s) (hstaged : t.staged = s.staged.write s.rxIndex.toNat v)
      (harm : t.readExpected = s.readExpected)
  | read (a : BitVec 7) (hi : completedInstr m s = some (.addrR a)) (ha : addressMatches a = true)
      (hmotion : motionView t = motionView s) (hstaged : t.staged = s.staged) (harm : t.readExpected = false)

/-- The list is complete. -/
theorem PulseEffect.wire {m : Bool} {s t : State} (h : PulseEffect m s t) : WireEffect m s t := by
  cases h with
  | address h1 hp =>
    rcases addressDecide_readExpected (addrField (shiftBit m s).sr) (rwField (shiftBit m s).sr) (shiftBit m s) with
      harm | ⟨hrw, ha, harm⟩
    · exact .none (addressDecide_motionView ..) (addressDecide_staged ..) harm
    · have hi : completedInstr m s = some (.addrR (addrField (shiftBit m s).sr)) := by
        rw [completedInstr_address h1 hp, addressInstr, if_pos hrw]
      exact .read _ hi ha (addressDecide_motionView ..) (addressDecide_staged ..) harm
  | first h1 hp hrx =>
    refine .command _ (completedInstr_first h1 hp hrx) ?_ ?_ ?_ <;> rw [firstEffect_shiftBit] <;> rfl
  | payload h1 hp hrx hle => exact .payload _ (completedInstr_payload h1 hp hrx) hle rfl rfl rfl
  | ignored | shifted | sessionEnd | byteAwaited | nacked | sent | answerAwaited => exact .none rfl rfl rfl

/-- What a command does to the motion: five of them reach it, BEGIN with a staged count that is not zero. -/
inductive CommandMotion (s : State) : FirstByte → State → Prop
  | none (f : FirstByte) : CommandMotion s f s
  | enable : CommandMotion s .enable { s with drvEn := 0b11#2 }
  | disable : CommandMotion s .disable { s with drvEn := 0b00#2 }
  | begin (hcount : stagedCount s ≠ 0#32) : CommandMotion s .begin
      { s with
        active :=
          { period := stagedPeriod s
            stepCounter := stagedCount s
            control := withModeIndex (stagedControl s) (modeIndex s) }
        acc := stagedPeriod s
        tReload := 1#16
        tCnt := 1#16
        tRun := true }
  | pause : CommandMotion s .pause { s with tRun := false }
  | resume : CommandMotion s .resume { s with tReload := 1#16, tCnt := 1#16, tRun := true }

/-- The list is complete. -/
theorem firstEffect_motion (f : FirstByte) (s : State) :
    ∃ u, CommandMotion s f u ∧ motionView (firstEffect f s) = motionView u := by
  cases f with
  | enable => exact ⟨_, .enable, rfl⟩
  | disable => exact ⟨_, .disable, rfl⟩
  | begin =>
    by_cases hcount : stagedCount s = 0#32
    · exact ⟨s, .none _, by rw [firstEffect, beginMotion_of_zero hcount]⟩
    · exact ⟨_, .begin hcount, by rw [firstEffect, beginMotion_of_ne hcount]; rfl⟩
  | pause => exact ⟨_, .pause, rfl⟩
  | resume => exact ⟨_, .resume, rfl⟩
  | stop | readPeriod | readSteps | readSettings | payload => exact ⟨s, .none _, rfl⟩

/-- What a clock pulse can do to the motion: nothing, or what the command it completes does. -/
theorem PulseEffect.motion {m : Bool} {s t : State} (h : PulseEffect m s t) :
    motionView t = motionView s ∨
      ∃ f u, completedInstr m s = some (firstInstr f) ∧ CommandMotion s f u ∧ motionView t = motionView u := by
  cases h.wire with
  | none hmotion => exact .inl hmotion
  | command f hi hmotion =>
    obtain ⟨u, hcommand, hu⟩ := firstEffect_motion f s
    exact .inr ⟨f, u, hi, hcommand, hmotion.trans hu⟩
  | payload v hi hle hmotion => exact .inl hmotion
  | read a hi ha hmotion => exact .inl hmotion

end Sys2Proof.Machine
end

section
/-! PROOFS. The bus session (spec/10_state.md R27 (b), (c), (d), (f)): every event keeps the shift, the direction and the indices in
step with the protocol state. -/

namespace Sys2Proof.Machine

/-- A command leaves `RX_INDEX` or sets it to 1. -/
theorem firstEffect_rxIndex_le (f : FirstByte) {s : State} (hrx : s.rxIndex.toNat ≤ 8) :
    (firstEffect f s).rxIndex.toNat ≤ 8 := by
  cases f with
  | begin => simp only [firstEffect, beginMotion]; split <;> exact hrx
  | stop | readPeriod | readSettings | payload => exact (by decide : (1#4).toNat ≤ 8)
  | enable | disable | pause | resume | readSteps => exact hrx

/-- `RX_INDEX` moved on by a payload byte stays at 8 at most. -/
theorem nextRxIndex_le {i : BitVec 4} (hle : i.toNat ≤ 8) : (if i = 8#4 then 8#4 else i + 1#4).toNat ≤ 8 := by
  split
  · decide
  · bv_omega

/-- A bit count above 1 is smaller and not zero after a shift. -/
theorem bitcnt_sub_one {n : BitVec 4} (h0 : n ≠ 0#4) (h1 : n ≠ 1#4) : n - 1#4 ≠ 0#4 ∧ (n - 1#4).toNat < n.toNat := by
  bv_omega

/-- The next index of the telemetry stream is 1 or 2. -/
theorem nextTxIndex_bounds : ∀ i : BitVec 2, i.toNat ≤ 2 → nextTxIndex i ≠ 0#2 ∧ (nextTxIndex i).toNat ≤ 2 := by
  decide

/-- START opens a session whose registers fit AddressWait. -/
theorem sessionInv_startSession (s : State) : SessionInv (startSession s) := by
  simp [SessionInv, shiftFits]

/-- The end of a session leaves registers that fit Idle. -/
theorem sessionInv_endSession {s : State} (h0 : s.bitcnt = 0#4) : SessionInv (endSession s) := by
  simp [SessionInv, shiftFits, h0]

/-- An acknowledge after a byte fits IdlePrep and ReceiveByte. -/
theorem sessionInv_acknowledge (done : Bool) {s : State} (hrw : s.rw = false) (htx : s.txIndex = 0#2)
    (hrx : s.rxIndex.toNat ≤ 8) : SessionInv (acknowledge done s) := by
  cases done <;> simp [SessionInv, shiftFits, hrw, htx, hrx]

/-- A shift that goes on keeps the registers in step: only states that wait for more than one bit have one to go. -/
theorem sessionInv_shiftBit {m : Bool} {s : State} (hs : SessionInv s) (h0 : s.bitcnt ≠ 0#4) (h1 : s.bitcnt ≠ 1#4) :
    SessionInv (shiftBit m s) := by
  obtain ⟨hfits, hbit, hrx, htx, hoe⟩ := hs
  obtain ⟨hne, hlt⟩ := bitcnt_sub_one h0 h1
  refine ⟨?_, by simp only [shiftBit_bitcnt]; omega, hrx, htx, fun _ => hne⟩
  cases hp : s.proto <;> simp_all [shiftFits]

/-- The decision on an address byte sets up the one bit that acknowledges it, and `RW` by what follows. -/
theorem sessionInv_addressDecide (addr : BitVec 7) (rw : Bool) {s : State} (hrw : s.rw = false)
    (hrx : s.rxIndex = 0#4) (htx : s.txIndex = 0#2) : SessionInv (addressDecide addr rw s) := by
  rcases addressDecide_cases addr rw s with ⟨-, -, -, h⟩ | ⟨-, -, h⟩ | ⟨-, h⟩ <;>
    simp [h, SessionInv, shiftFits, hrw, hrx, htx]

/-- A byte to send fits WaitAck. -/
theorem sessionInv_transmitByte {s : State} (hrw : s.rw = true) (hrx : s.rxIndex = 0#4) (htx : s.txIndex.toNat ≤ 2) :
    SessionInv (transmitByte s) := by
  obtain ⟨hne, hle⟩ := nextTxIndex_bounds s.txIndex htx
  simp [SessionInv, shiftFits, hrw, hrx, hne, hle]

/-- A clock pulse keeps the session registers in step with the protocol state. -/
theorem PulseEffect.sessionInv {m : Bool} {s t : State} (hs : SessionInv s) (h : PulseEffect m s t) : SessionInv t := by
  obtain ⟨hfits, hbit, hrx, htx, hoe⟩ := hs
  cases h with
  | ignored => exact ⟨hfits, hbit, hrx, htx, hoe⟩
  | shifted h0 h1 => exact sessionInv_shiftBit ⟨hfits, hbit, hrx, htx, hoe⟩ h0 h1
  | address h1 hp =>
    simp only [shiftFits, hp, decide_eq_true_eq] at hfits
    obtain ⟨-, -, hrw, hrx0, htx0⟩ := hfits
    exact sessionInv_addressDecide _ _ hrw hrx0 htx0
  | sessionEnd h1 | nacked h1 => exact sessionInv_endSession (by simp [h1])
  | byteAwaited h1 hp =>
    simp only [shiftFits, hp, decide_eq_true_eq] at hfits
    obtain ⟨-, -, hrw, htx0⟩ := hfits
    simp [SessionInv, shiftFits, hrw, htx0, hrx]
  | first h1 hp hrx0 =>
    simp only [shiftFits, hp, decide_eq_true_eq] at hfits
    obtain ⟨-, -, hrw, htx0⟩ := hfits
    rw [firstEffect_frame]
    exact sessionInv_acknowledge _ hrw htx0 (firstEffect_rxIndex_le _ hrx)
  | payload h1 hp hrx0 hle =>
    simp only [shiftFits, hp, decide_eq_true_eq] at hfits
    obtain ⟨-, -, hrw, htx0⟩ := hfits
    exact sessionInv_acknowledge _ hrw htx0 (nextRxIndex_le hle)
  | sent h1 hp =>
    simp only [shiftFits, hp, decide_eq_true_eq] at hfits
    obtain ⟨-, -, hrw, hrx0⟩ := hfits
    exact sessionInv_transmitByte hrw hrx0 htx
  | answerAwaited h1 hp =>
    simp only [shiftFits, hp, decide_eq_true_eq] at hfits
    obtain ⟨-, -, hrw, htx0, hrx0⟩ := hfits
    simp [SessionInv, shiftFits, hrw, hrx0, htx0, htx]

/-- A TICK leaves the session registers alone. -/
theorem TickEffect.sessionInv {s t : State} (hs : SessionInv s) (h : TickEffect s t) : SessionInv t := by
  rw [h.session]
  exact hs

/-- Settles O40: the session invariant does not read the waiting events, START and RESET establish it, a TICK does not touch it, and
for a clock pulse it is a case analysis over what the pulse can do. -/
theorem everyStepKeepsTheSessionInvariant : Obligations.EveryStepKeepsTheSessionInvariant := by
  intro s t hs h
  refine step_keeps (P := SessionInv) (fun _ _ hs => hs) (fun s e t hs he => ?_) hs h
  cases he with
  | reset => exact (by decide : SessionInv State.reset)
  | tick htick => exact htick.sessionInv hs
  | start => exact sessionInv_startSession s
  | bit hpulse => exact hpulse.sessionInv hs

end Sys2Proof.Machine
end

section
/-! PROOFS. The step of the motor (spec/40_stepping_engine.md R83 to R87) register by register, and the other invariants of every step:
the timer and the accumulator, the outputs, the staged bytes. The reset state meets them all. -/

namespace Sys2Proof.Machine

/-! ### The step -/

/-- The five actions of a step in one record: the completion stops the timer when the new count is zero and then, without hold, lets
the driver go. -/
theorem stepMotor_record (s : State) :
    stepMotor s =
      { s with
        tReload := s.acc.extractLsb' 0 16
        tCnt := s.acc.extractLsb' 0 16
        acc := s.active.period
        phase := phaseRom (modeIndex s)
        active :=
          { period := s.active.period
            stepCounter := s.active.stepCounter - 1#32
            control := withModeIndex s.active.control (nextModeIndex (direction s) (modeIndex s)) }
        tRun := if s.active.stepCounter - 1#32 = 0#32 then false else s.tRun
        drvEn := if s.active.stepCounter - 1#32 = 0#32 ∧ holdPosition s = false then 0b00#2 else s.drvEn } := by
  obtain ⟨-, -, -, hhold⟩ := withModeIndex_fields s.active.control (nextModeIndex (direction s) (modeIndex s))
  rw [stepMotor_eq]
  by_cases hcount : s.active.stepCounter - 1#32 = 0#32
  · rw [complete_of_zero hcount]
    cases hold : holdField s.active.control <;> simp [holdPosition, hhold, hcount, hold]
  · rw [complete_of_ne hcount]
    simp [hcount]

@[simp] theorem stepMotor_active (s : State) :
    (stepMotor s).active =
      { period := s.active.period
        stepCounter := s.active.stepCounter - 1#32
        control := withModeIndex s.active.control (nextModeIndex (direction s) (modeIndex s)) } := by
  rw [stepMotor_record]
@[simp] theorem stepMotor_acc (s : State) : (stepMotor s).acc = s.active.period := by rw [stepMotor_record]
@[simp] theorem stepMotor_tCnt (s : State) : (stepMotor s).tCnt = s.acc.extractLsb' 0 16 := by rw [stepMotor_record]
@[simp] theorem stepMotor_phase (s : State) : (stepMotor s).phase = phaseRom (modeIndex s) := by rw [stepMotor_record]
@[simp] theorem stepMotor_tRun (s : State) :
    (stepMotor s).tRun = if s.active.stepCounter - 1#32 = 0#32 then false else s.tRun := by rw [stepMotor_record]
@[simp] theorem stepMotor_drvEn (s : State) :
    (stepMotor s).drvEn =
      if s.active.stepCounter - 1#32 = 0#32 ∧ holdPosition s = false then 0b00#2 else s.drvEn := by rw [stepMotor_record]

/-- The final reload of an accumulator of at most `TIMER_MAX` is the accumulator (R83). -/
theorem finalReload_toNat {acc : Word} (hacc : acc.toNat ≤ 65535) : (acc.extractLsb' 0 16).toNat = acc.toNat := by
  rw [BitVec.extractLsb'_toNat, Nat.shiftRight_zero]
  omega

/-! ### The timer -/

/-- The timer invariant reads the motion alone. -/
theorem timerInv_of_motionView_eq {s t : State} (hs : TimerInv s) (h : motionView t = motionView s) : TimerInv t := by
  obtain ⟨hactive, hacc, -, hcnt, hrun, -, -⟩ := motionView_eq_iff.1 h
  simpa only [TimerInv, hactive, hacc, hcnt, hrun] using hs

/-- After a final reload the accumulator is the period, and the count is the old accumulator, zero only with a zero period. -/
theorem timerInv_stepMotor {s : State} (hacc : s.acc.toNat ≤ 65535) (hzero : s.acc = 0#32 → s.active.period = 0#32) :
    TimerInv (stepMotor s) := by
  have hreload := finalReload_toNat hacc
  simp only [TimerInv, stepMotor_active, stepMotor_acc, stepMotor_tCnt]
  refine ⟨fun _ hcnt => hzero ?_, le_refl _, by simp, id⟩
  rw [hcnt] at hreload
  bv_omega

/-- A TICK keeps timer and accumulator consistent with the period. -/
theorem TickEffect.timerInv {s t : State} (hs : TimerInv s) (h : TickEffect s t) : TimerInv t := by
  obtain ⟨hcnt, hle, hmod, hzero⟩ := hs
  cases h with
  | stopped => exact ⟨hcnt, hle, hmod, hzero⟩
  | counted hrun h1 =>
    refine ⟨fun _ h0 => ?_, hle, hmod, hzero⟩
    rw [countDown_tCnt] at h0
    bv_omega
  | carried hrun h1 hacc =>
    have hsub : (s.acc - 65535#32).toNat = s.acc.toNat - 65535 := by bv_omega
    simp only [TimerInv, Config.timerMax, carry_active, carry_acc, carry_tCnt, countDown_active, countDown_acc] at hmod ⊢
    have hpos : s.acc - 65535#32 ≠ 0#32 := by bv_omega
    rw [hsub]
    exact ⟨fun _ h => absurd h (by decide), by omega, by omega, fun h => absurd h hpos⟩
  | stepped hrun h1 hacc => exact timerInv_stepMotor hacc hzero

/-- A command keeps timer and accumulator consistent with the period: BEGIN sets them afresh, RESUME and PAUSE leave the accumulator. -/
theorem CommandMotion.timerInv {f : FirstByte} {s u : State} (hs : TimerInv s) (h : CommandMotion s f u) :
    TimerInv u := by
  obtain ⟨hcnt, hle, hmod, hzero⟩ := hs
  cases h with
  | none | enable | disable => exact ⟨hcnt, hle, hmod, hzero⟩
  | begin => exact ⟨fun _ h => absurd h (by simp), le_refl _, by simp, id⟩
  | pause => exact ⟨fun h => absurd h (by simp), hle, hmod, hzero⟩
  | resume => exact ⟨fun _ h => absurd h (by simp), hle, hmod, hzero⟩

/-- Settles O41: each event either leaves the motion alone, or is a TICK or a command, for which the lemmas above say how the three
timer registers move together. -/
theorem everyStepKeepsTheTimerInvariant : Obligations.EveryStepKeepsTheTimerInvariant := by
  intro s t hs h
  refine step_keeps (P := TimerInv) (fun _ _ hs => hs) (fun s e t hs he => ?_) hs h
  cases he with
  | reset => exact (by decide : TimerInv State.reset)
  | tick htick => exact htick.timerInv hs
  | start => exact hs
  | bit hpulse =>
    rcases hpulse.motion with hmotion | ⟨f, u, -, hcommand, hmotion⟩
    · exact timerInv_of_motionView_eq hs hmotion
    · exact timerInv_of_motionView_eq (hcommand.timerInv hs) hmotion

/-! ### The outputs -/

/-- Every pattern of the ROM is one of the four. -/
theorem phaseRom_legal (i : BitVec 2) :
    phaseRom i = 0b0101#4 ∨ phaseRom i = 0b0110#4 ∨ phaseRom i = 0b1010#4 ∨ phaseRom i = 0b1001#4 := by
  revert i
  decide

/-- The output invariant reads the motion alone. -/
theorem outputInv_of_motionView_eq {s t : State} (hs : OutputInv s) (h : motionView t = motionView s) : OutputInv t := by
  obtain ⟨-, -, -, -, -, hphase, hdrv⟩ := motionView_eq_iff.1 h
  simpa only [OutputInv, hphase, hdrv] using hs

/-- A TICK leaves the outputs, or steps: then `PHASE` comes from the ROM and `DRV_EN` is kept or cleared. -/
theorem TickEffect.outputInv {s t : State} (hs : OutputInv s) (h : TickEffect s t) : OutputInv t := by
  obtain ⟨hdrv, hphase⟩ := hs
  cases h with
  | stopped | counted | carried => exact ⟨hdrv, hphase⟩
  | stepped =>
    refine ⟨?_, .inr ?_⟩
    · rw [stepMotor_drvEn]
      split
      · exact .inl rfl
      · exact hdrv
    · rw [stepMotor_phase]
      exact phaseRom_legal _

/-- A command leaves the phase lines and drives both enable lines alike. -/
theorem CommandMotion.outputInv {f : FirstByte} {s u : State} (hs : OutputInv s) (h : CommandMotion s f u) :
    OutputInv u := by
  obtain ⟨hdrv, hphase⟩ := hs
  cases h with
  | none | begin | pause | resume => exact ⟨hdrv, hphase⟩
  | enable => exact ⟨.inr rfl, hphase⟩
  | disable => exact ⟨.inl rfl, hphase⟩

/-- Settles O43: only a step writes `PHASE`, from the ROM, and only a step, ENABLE and DISABLE write `DRV_EN`, both lines alike. -/
theorem everyStepKeepsTheOutputsLegal : Obligations.EveryStepKeepsTheOutputsLegal := by
  intro s t hs h
  refine step_keeps (P := OutputInv) (fun _ _ hs => hs) (fun s e t hs he => ?_) hs h
  cases he with
  | reset => exact (by decide : OutputInv State.reset)
  | tick htick => exact htick.outputInv hs
  | start => exact hs
  | bit hpulse =>
    rcases hpulse.motion with hmotion | ⟨f, u, -, hcommand, hmotion⟩
    · exact outputInv_of_motionView_eq hs hmotion
    · exact outputInv_of_motionView_eq (hcommand.outputInv hs) hmotion

/-! ### The staged bytes -/

/-- A command leaves the staged bytes, empties the block or writes at offset 0. -/
theorem stagedInv_firstEffect (f : FirstByte) {s : State} (hs : StagedInv s) : StagedInv (firstEffect f s) := by
  cases f with
  | begin =>
    by_cases hcount : stagedCount s = 0#32
    · rwa [firstEffect, beginMotion_of_zero hcount]
    · rw [firstEffect, beginMotion_of_ne hcount]
      exact (by decide : Memory.wf [] = true)
  | stop | readPeriod | readSettings | payload => exact Memory.wf_write s.staged 0 _ (by decide) hs
  | enable | disable | pause | resume | readSteps => exact hs

/-- A clock pulse keeps the staged bytes in canonical form. -/
theorem WireEffect.stagedInv {m : Bool} {s t : State} (hs : StagedInv s) (h : WireEffect m s t) : StagedInv t := by
  cases h with
  | none _ hstaged => rwa [StagedInv, hstaged]
  | command f _ _ hstaged =>
    rw [StagedInv, hstaged]
    exact stagedInv_firstEffect f hs
  | payload v _ hle _ hstaged =>
    rw [StagedInv, hstaged]
    exact Memory.wf_write s.staged _ v (Nat.lt_succ_of_le hle) hs
  | read _ _ _ _ hstaged => rwa [StagedInv, hstaged]

/-- Settles O42: the staged bytes are reached by bytes of the wire alone, and each of their writes is at an offset STG has. -/
theorem everyStepKeepsTheStagedBytesCanonical : Obligations.EveryStepKeepsTheStagedBytesCanonical := by
  intro s t hs h
  refine step_keeps (P := StagedInv) (fun _ _ hs => hs) (fun s e t hs he => ?_) hs h
  cases he with
  | reset => exact (by decide : StagedInv State.reset)
  | tick htick =>
    rw [htick.session]
    exact hs
  | start => exact hs
  | bit hpulse => exact hpulse.wire.stagedInv hs

/-! ### The reset state -/

/-- Settles O39: every part of the two invariants is a decidable fact about the reset values. -/
theorem resetMeetsTheInvariants : Obligations.ResetMeetsTheInvariants := by
  refine ⟨⟨?session, ?timer, ?output, ?staged⟩, ?motion⟩
  case session => exact (by decide : SessionInv State.reset)
  case timer => exact (by decide : TimerInv State.reset)
  case output => exact (by decide : OutputInv State.reset)
  case staged => exact (by decide : StagedInv State.reset)
  case motion => exact (by decide : MotionInv State.reset)

end Sys2Proof.Machine
end

section
/-! PROOFS. Decoder and encoder (spec/30_encoding.md): each reads back what the other puts on the wire, at every position. -/

namespace Sys2Proof.Machine

/-! ### The first data byte -/

/-- A first byte that is neither an implemented nor a reserved opcode is payload (R62). -/
theorem firstByte_of_payload {v : Byte} (himpl : implementedOpcodes.contains v = false)
    (hres : reservedOpcodes.contains v = false) : firstByte v = .payload v := by
  rcases firstEffect_reading v himpl with h | ⟨-, rfl⟩ | ⟨-, rfl⟩ | ⟨-, rfl⟩
  · exact h
  all_goals exact absurd hres (by decide)

/-- Every first byte decodes to a well-formed instruction whose encoding is that byte (R62, R66). -/
theorem encode_firstInstr : ∀ v : Byte,
    (firstInstr (firstByte v)).wellFormed = true ∧ encode (firstInstr (firstByte v)) = .bytes .first [v] := by
  decide

/-- Every address byte decodes to a well-formed instruction whose encoding is that byte (R61). -/
theorem encode_addressInstr (b : Byte) :
    (addressInstr b).wellFormed = true ∧ encode (addressInstr b) = .bytes .address [b] := by
  have hb := addressByte_of_fields b
  cases hrw : rwField b <;> rw [hrw] at hb <;> simp [addressInstr, hrw, Instr.wellFormed, encode, hb]

/-- The encoding of an address byte decodes to its row. -/
theorem decode_addressByte (addr : BitVec 7) (rw : Bool) :
    decodeBytes .address [addressByte addr rw] = .ok (if rw then .addrR addr else .addrW addr, []) := by
  obtain ⟨haddr, hrw⟩ := addressByte_fields addr rw
  rw [decodeBytes, addressInstr, haddr, hrw]

/-- The encoding of a control byte decodes to its fields. -/
theorem controlInstr_controlByteOf (r : BitVec 4) (h d : Bool) (m : BitVec 2) :
    controlInstr (controlByteOf r h d m) = .controlByte r h d m := by
  obtain ⟨hr, hh, hd, hm⟩ := controlByteOf_fields r h d m
  rw [controlInstr, hr, hh, hd, hm]

/-! ### The payload block -/

/-- A block whose first byte is an implemented opcode is refused (R214). -/
theorem blockInstr_of_opcode {p3 : Byte} (p2 p1 p0 c3 c2 c1 c0 k : Byte) (himpl : implementedOpcodes.contains p3 = true) :
    blockInstr p3 p2 p1 p0 c3 c2 c1 c0 k = .error .opcodeCollision := by
  rw [blockInstr, firstCompletes_eq, if_pos himpl]

/-- Every other block is a LOAD (R63). -/
theorem blockInstr_of_not_opcode {p3 : Byte} (p2 p1 p0 c3 c2 c1 c0 k : Byte)
    (himpl : implementedOpcodes.contains p3 = false) :
    blockInstr p3 p2 p1 p0 c3 c2 c1 c0 k =
      .ok (.load (be32 p3 p2 p1 p0) (be32 c3 c2 c1 c0) (reservedField k) (holdField k) (directionField k) (modeIndexField k)) := by
  rw [blockInstr, firstCompletes_eq, if_neg (by rw [himpl]; decide)]

/-- The first byte of a big-endian word is its most significant one. -/
theorem be32_first (a b c d : Byte) : (be32 a b c d).extractLsb' 24 8 = a := by
  have hbytes := be32Bytes_be32 a b c d
  rw [be32Bytes, List.cons.injEq] at hbytes
  exact hbytes.1

/-- The encoding of a well-formed LOAD decodes to it. -/
theorem decode_encode_load {p c : Word} {r : BitVec 4} {h d : Bool} {m : BitVec 2}
    (hwf : (Instr.load p c r h d m).wellFormed = true) :
    decodeWire (encode (.load p c r h d m)) = .ok (.load p c r h d m, []) := by
  have himpl : implementedOpcodes.contains (p.extractLsb' 24 8) = false := by
    simpa only [Instr.wellFormed, Bool.not_eq_true'] using hwf
  obtain ⟨hr, hh, hd, hm⟩ := controlByteOf_fields r h d m
  simp only [encode, be32Bytes, List.cons_append, List.nil_append, decodeWire, decodeBytes,
    blockInstr_of_not_opcode _ _ _ _ _ _ _ _ himpl, be32_of_bytes, hr, hh, hd, hm]

/-- Settles O36: row by row; the rows with operands by the lemmas that put the fields of their bytes together and take them apart. -/
theorem decodeOfEncodeIsTheInstruction : Obligations.DecodeOfEncodeIsTheInstruction := by
  intro i hwf hword
  cases i with
  | enable | disable | begin | pause | resume | stop | readPeriod | readSteps | readSettings => rfl
  | payload0 v =>
    simp only [Instr.wellFormed, Bool.and_eq_true, Bool.not_eq_true'] at hwf
    obtain ⟨himpl, hres⟩ := hwf
    rw [encode, decodeWire, decodeBytes, firstByte_of_payload himpl hres]
    rfl
  | payloadN v | bit m => rfl
  | addrW addr => exact decode_addressByte addr false
  | addrR addr => exact decode_addressByte addr true
  | controlByte r h d m => rw [encode, decodeWire, decodeBytes, controlInstr_controlByteOf]
  | load p c r h d m => exact decode_encode_load hwf
  | read | reset | tick | expire | expireCarry | expireStep | start => exact absurd rfl hword
  | shiftDoneAddressWait | shiftDoneIdlePrep | shiftDoneReceiveByte => exact absurd rfl hword
  | shiftDoneReceiveCheck | shiftDoneTransmitCheck | shiftDoneWaitAck | commit => exact absurd rfl hword

/-- Settles O37: by the position; a block is split on the opcode collision. -/
theorem everyByteDecodesAndEncodesBack : Obligations.EveryByteDecodesAndEncodesBack := by
  constructor
  · intro p b hp
    cases p with
    | address => exact ⟨addressInstr b, rfl, encode_addressInstr b⟩
    | first => exact ⟨firstInstr (firstByte b), rfl, encode_firstInstr b⟩
    | payload => exact ⟨.payloadN b, rfl, rfl, rfl⟩
    | control => exact ⟨controlInstr b, rfl, rfl, by rw [controlInstr, encode, controlByteOf_of_fields]⟩
    | block => exact absurd rfl hp
  · intro p3 p2 p1 p0 c3 c2 c1 c0 k
    split
    next himpl => rw [decodeBytes, blockInstr_of_opcode _ _ _ _ _ _ _ _ himpl]
    next himpl =>
      rw [Bool.not_eq_true] at himpl
      refine ⟨_, by rw [decodeBytes, blockInstr_of_not_opcode _ _ _ _ _ _ _ _ himpl], ?_, ?_⟩
      · rw [Instr.wellFormed, be32_first, himpl]
        rfl
      · rw [encode, be32Bytes_be32, be32Bytes_be32, controlByteOf_of_fields]
        rfl

/-- Settles O38: the decoder is run on each of the words. -/
theorem specWordsDecodeToTheirRows : Obligations.SpecWordsDecodeToTheirRows := by
  unfold Obligations.SpecWordsDecodeToTheirRows
  decide

end Sys2Proof.Machine
end

section
/-! PROOFS. The bytes of a write (spec/42_i2c_framing.md section 4, spec/43_commands.md section 5): the payload rows, LOAD as its nine
bytes, the commit of the staged block. -/

namespace Sys2Proof.Machine

/-! ### Single payload bytes -/

theorem exec_payload0 (v : Byte) (s : State) : exec (.payload0 v) s = .next (storeFirst v s) := rfl
theorem exec_payloadN (v : Byte) (s : State) : exec (.payloadN v) s = storePayload v s := rfl
theorem exec_controlByte (r : BitVec 4) (h d : Bool) (m : BitVec 2) (s : State) :
    exec (.controlByte r h d m) s = .next (stage 8 (controlByteOf r h d m) s) := rfl

/-- Settles O8: each of the three rows is the first payload byte of its own value. -/
theorem reservedOpcodesActAsFirstPayloadByte : Obligations.ReservedOpcodesActAsFirstPayloadByte := by
  intro s
  exact ⟨rfl, rfl, rfl, rfl, rfl, rfl⟩

/-- Settles O9: PAYLOAD0 is one write at offset 0, and the memory laws say what every offset reads after it. -/
theorem firstPayloadByteGoesToOffsetZero : Obligations.FirstPayloadByteGoesToOffsetZero := by
  intro v s hwf
  exact ⟨_, exec_payload0 v s, rfl, Memory.read_write_same s.staged 0 v hwf, fun a ha => Memory.read_write_ne s.staged v ha⟩

/-- Settles O10: PAYLOADn with `RX_INDEX` in range is one write at that offset. -/
theorem laterPayloadBytesGoToRxIndex : Obligations.LaterPayloadBytesGoToRxIndex := by
  intro v s hwf hle
  rw [exec_payloadN, storePayload_of_le hle]
  refine ⟨_, rfl, rfl, Memory.read_write_same s.staged _ v hwf, fun a ha => Memory.read_write_ne s.staged v ha, ?_⟩
  rw [payloadCompletes, decide_eq_true_iff]

/-- Settles O11: CONTROL_BYTE is one write at offset 8, of a byte whose fields are read back. -/
theorem controlByteIsStoredFieldByField : Obligations.ControlByteIsStoredFieldByField := by
  intro r h d m s hwf
  refine ⟨_, exec_controlByte r h d m s, rfl, ?_⟩
  obtain ⟨hr, hh, hd, hm⟩ := controlByteOf_fields r h d m
  have hread : stagedControl (stage 8 (controlByteOf r h d m) s) = controlByteOf r h d m :=
    Memory.read_write_same s.staged 8 _ hwf
  rw [hread]
  exact ⟨hr, hh, hd, hm, fun a ha => Memory.read_write_ne s.staged _ ha⟩

/-! ### Bytes in order -/

/-- Staging bytes writes the staged bytes alone. -/
theorem stageFrom_frame (i : Nat) (bs : List Byte) (s : State) :
    stageFrom i bs s = { s with staged := (stageFrom i bs s).staged } := by
  induction bs generalizing i s with
  | nil => rfl
  | cons b bs ih =>
    rw [stageFrom, ih]
    rfl

/-- Bytes staged from `i` up leave every offset below `i` and above the last. -/
theorem read_stageFrom_of_not_mem {i a : Nat} {bs : List Byte} {s : State} (ha : a < i ∨ i + bs.length ≤ a) :
    (stageFrom i bs s).staged.read a = s.staged.read a := by
  induction bs generalizing i s with
  | nil => rfl
  | cons b bs ih =>
    rw [List.length_cons] at ha
    rw [stageFrom, ih (by omega)]
    exact Memory.read_write_ne s.staged b (by omega)

/-- Bytes staged from `i` up are read back. -/
theorem read_stageFrom {i k : Nat} {bs : List Byte} {s : State} (hlen : i + bs.length ≤ 9) (hs : StagedInv s)
    (hk : k < bs.length) : (stageFrom i bs s).staged.read (i + k) = bs[k] := by
  induction bs generalizing i k s with
  | nil => exact absurd hk (Nat.not_lt_zero k)
  | cons b bs ih =>
    rw [List.length_cons] at hlen hk
    cases k with
    | zero =>
      rw [stageFrom, read_stageFrom_of_not_mem (by omega)]
      exact Memory.read_write_same s.staged i b hs
    | succ k =>
      have hstage : StagedInv (stage i b s) := Memory.wf_write s.staged i b (show i < 9 by omega) hs
      have hnext := ih (i := i + 1) (k := k) (s := stage i b s) (by omega) hstage (by omega)
      rwa [Nat.add_right_comm, Nat.add_assoc] at hnext

/-- Staging bytes does not read `RX_INDEX`. -/
theorem stageFrom_rxIndex (i : Nat) (bs : List Byte) (s : State) (rx : BitVec 4) :
    stageFrom i bs { s with rxIndex := rx } = { stageFrom i bs s with rxIndex := rx } := by
  induction bs generalizing i s with
  | nil => rfl
  | cons b bs ih => exact ih (i + 1) (stage i b s)

/-- Payload bytes that fit are staged one after another from `RX_INDEX`, which stays at 8 with the ninth. -/
theorem storePayloads_eq {bs : List Byte} {s : State} (hlen : s.rxIndex.toNat + bs.length ≤ 9) (hrx : s.rxIndex.toNat ≤ 8) :
    storePayloads bs s =
      .next { stageFrom s.rxIndex.toNat bs s with rxIndex := BitVec.ofNat 4 (min 8 (s.rxIndex.toNat + bs.length)) } := by
  induction bs generalizing s with
  | nil =>
    have hmin : BitVec.ofNat 4 (min 8 (s.rxIndex.toNat + 0)) = s.rxIndex := by
      rw [Nat.add_zero, Nat.min_eq_right hrx, BitVec.ofNat_toNat, BitVec.setWidth_eq]
    rw [storePayloads, List.length_nil, hmin]
    rfl
  | cons b bs ih =>
    rw [List.length_cons] at hlen
    have hcons : storePayloads (b :: bs) s = storePayloads bs
        { stage s.rxIndex.toNat b s with rxIndex := if s.rxIndex = 8#4 then 8#4 else s.rxIndex + 1#4 } := by
      rw [storePayloads, storePayload_of_le hrx]
      rfl
    rw [hcons]
    by_cases h8 : s.rxIndex = 8#4
    · obtain rfl : bs = [] := List.eq_nil_of_length_eq_zero (by rw [h8] at hlen; change 8 + _ ≤ 9 at hlen; omega)
      rw [if_pos h8, storePayloads, h8]
      rfl
    · have hnext : (s.rxIndex + 1#4).toNat = s.rxIndex.toNat + 1 := by bv_omega
      rw [if_neg h8, ih (by rw [hnext]; omega) (by rw [hnext]; bv_omega), hnext, stageFrom_rxIndex, List.length_cons,
        Nat.add_right_comm, Nat.add_assoc, Nat.add_comm bs.length]
      rfl

/-! ### LOAD -/

/-- A first byte that is no implemented opcode is stored, whatever row it has (R160). -/
theorem firstEffect_of_not_opcode {v : Byte} (himpl : implementedOpcodes.contains v = false) (s : State) :
    firstEffect (firstByte v) s = storeFirst v s := by
  rcases firstEffect_reading v himpl with h | ⟨h, rfl⟩ | ⟨h, rfl⟩ | ⟨h, rfl⟩ <;> rw [h] <;> rfl

/-- The nine bytes of a LOAD (R63). -/
def loadBytes (p c : Word) (r : BitVec 4) (h d : Bool) (m : BitVec 2) : List Byte :=
  be32Bytes p ++ be32Bytes c ++ [controlByteOf r h d m]

/-- A well-formed LOAD stages its nine bytes in order. -/
theorem exec_load_of_wellFormed {p c : Word} {r : BitVec 4} {h d : Bool} {m : BitVec 2}
    (hwf : (Instr.load p c r h d m).wellFormed = true) (s : State) :
    exec (.load p c r h d m) s = .next { stageFrom 0 (loadBytes p c r h d m) s with rxIndex := 8#4 } := by
  have himpl : implementedOpcodes.contains (p.extractLsb' 24 8) = false := by
    simpa only [Instr.wellFormed, Bool.not_eq_true'] using hwf
  have hfirst : exec (.load p c r h d m) s =
      storePayloads (loadBytes p c r h d m).tail (storeFirst (p.extractLsb' 24 8) s) := by
    rw [exec, execLoad, firstCompletes_eq, himpl, firstEffect_of_not_opcode himpl]
    rfl
  have hrest := storePayloads_eq (bs := (loadBytes p c r h d m).tail) (s := storeFirst (p.extractLsb' 24 8) s)
    (show 1 + 8 ≤ 9 by decide) (show 1 ≤ 8 by decide)
  rw [hfirst, hrest, storeFirst, stageFrom_rxIndex]
  rfl

/-- Settles O12: LOAD stages its nine bytes from offset 0 up, so each staged view reads its own four bytes, or one, of them. -/
theorem loadFillsTheStagedBlock : Obligations.LoadFillsTheStagedBlock := by
  intro p c r h d m s hs hwf
  have hread (k : Nat) (hk : k < 9) :
      (stageFrom 0 (loadBytes p c r h d m) s).staged.read k = (loadBytes p c r h d m)[k] := by
    have h0 := read_stageFrom (i := 0) (bs := loadBytes p c r h d m) (show 0 + 9 ≤ 9 by decide) hs hk
    rwa [Nat.zero_add] at h0
  refine ⟨_, exec_load_of_wellFormed hwf s, by rw [stageFrom_frame], ?period, ?count, ?control, ?above⟩
  case period =>
    simp only [stagedPeriod, hread 0 (by decide), hread 1 (by decide), hread 2 (by decide), hread 3 (by decide)]
    exact be32_of_bytes p
  case count =>
    simp only [stagedCount, hread 4 (by decide), hread 5 (by decide), hread 6 (by decide), hread 7 (by decide)]
    exact be32_of_bytes c
  case control => exact hread 8 (by decide)
  case above => exact fun a ha => read_stageFrom_of_not_mem (.inr (show 0 + 9 ≤ a by omega))

/-- Settles O13: LOAD takes its first byte as R150 takes it, and drops the rest when it completes the write. -/
theorem collidingLoadIsTheCommand : Obligations.CollidingLoadIsTheCommand := by
  intro p c r h d m s hwf
  have himpl : implementedOpcodes.contains (p.extractLsb' 24 8) = true := by
    simpa only [Instr.wellFormed, Bool.not_eq_false'] using hwf
  rw [exec_firstInstr, exec, execLoad, firstCompletes_eq, himpl]
  rfl

/-! ### The commit -/

theorem exec_commit (s : State) : exec .commit s = .next (if stagedReady s then commitStaged s else s) := rfl

/-- Settles O33: the test of R184 splits COMMIT; the staged views are spelt out byte by byte. -/
theorem commitCopiesAllButTheModeIndex : Obligations.CommitCopiesAllButTheModeIndex := by
  intro s
  rw [exec_commit]
  constructor
  · intro hcount
    rw [if_pos ((stagedReady_iff s).mpr hcount)]
    rfl
  · intro hcount
    rw [if_neg fun hready => (stagedReady_iff s).mp hready hcount]

end Sys2Proof.Machine
end

section
/-! PROOFS. Single events and rows: the Stepping Engine (spec/40_stepping_engine.md), the bus events and SHIFT_DONE
(spec/41_i2c_bit_layer.md, spec/42_i2c_framing.md), RESET and the step. -/

namespace Sys2Proof.Machine

theorem exec_resume (s : State) : exec .resume s = .next (resumeMotion s) := rfl
theorem exec_readSteps (s : State) : exec .readSteps s = .next (armRead s) := rfl
theorem exec_expire (s : State) : exec .expire s = .next (expireTimer s) := rfl
theorem exec_expireCarry (s : State) : exec .expireCarry s = .next (carry s) := rfl
theorem exec_expireStep (s : State) : exec .expireStep s = .next (stepMotor s) := rfl
theorem exec_addrW (a : BitVec 7) (s : State) : exec (.addrW a) s = .next (addressDecide a false s) := rfl
theorem exec_addrR (a : BitVec 7) (s : State) : exec (.addrR a) s = .next (addressDecide a true s) := rfl
theorem exec_shiftDoneAddressWait (s : State) :
    exec .shiftDoneAddressWait s = .next (addressDecide (addrField s.sr) (rwField s.sr) s) := rfl
theorem exec_shiftDoneReceiveCheck (s : State) : exec .shiftDoneReceiveCheck s = execShiftDoneReceiveCheck s := rfl
theorem exec_shiftDoneTransmitCheck (s : State) :
    exec .shiftDoneTransmitCheck s = .next (if masterNack s then endSession s else transmitByte s) := rfl

/-! ### Reset, quiet -/

/-- Settles O1: RESET is `takeReset`, and the reset state is the record of R29 with an empty list of staged cells. -/
theorem resetRestoresEveryRegister : Obligations.ResetRestoresEveryRegister := by
  intro s
  refine ⟨exec_reset s, rfl, Memory.read_nil, ?_⟩
  decide

/-- Settles O2: a stopped timer and an idle shifter are the first case of TICK and of BIT. -/
theorem quietBlockIgnoresTicksAndPulses : Obligations.QuietBlockIgnoresTicksAndPulses := by
  intro s
  refine ⟨fun hrun => execTick_of_stopped hrun, fun h0 m => ?_⟩
  rw [exec_bit, execBit, if_pos h0]

/-! ### The timer -/

/-- Settles O6: RESUME arms the timer with a count of 1, from which the next TICK expires. -/
theorem resumeForcesAnExpiryOnTheNextTick : Obligations.ResumeForcesAnExpiryOnTheNextTick := by
  intro s
  exact ⟨exec_resume s, execTick_of_one (s := resumeMotion s) rfl rfl⟩

/-- Settles O7: READ_STEPS is its own effect, a record update of `READ_EXPECTED` alone. -/
theorem readStepsOnlyArmsTheRead : Obligations.ReadStepsOnlyArmsTheRead := by
  intro s
  rw [exec_readSteps, armRead]

/-- Settles O18: above 1 TICK counts down; at 1 it is the expiry with the count at 0. -/
theorem tickCountsDownAndRaisesExpireAtZero : Obligations.TickCountsDownAndRaisesExpireAtZero := by
  intro s hrun
  refine ⟨fun hcnt => execTick_of_gt_one hrun hcnt, fun hcnt => ⟨_, exec_expire _, ?_⟩⟩
  rw [exec_tick, execTick_of_one hrun hcnt, countDown_of_one hcnt]

/-- Settles O19: the fault is the first test of a running timer. -/
theorem tickOnAZeroCountFaults : Obligations.TickOnAZeroCountFaults := by
  intro s hrun hcnt
  exact execTick_of_zero hrun hcnt

/-- Settles O20: the two branches of EXPIRE. -/
theorem expireCarriesAboveTheTimerMaximum : Obligations.ExpireCarriesAboveTheTimerMaximum := by
  intro s
  refine ⟨fun hacc => ⟨_, exec_expireCarry s, ?_⟩, fun hacc => ⟨_, exec_expireStep s, ?_⟩⟩
  · rw [exec_expire, expireTimer_of_gt hacc]
  · rw [exec_expire, expireTimer_of_le hacc]

/-- Settles O21: the carry is one record update, and above 65535 the subtraction does not wrap. -/
theorem carryOnlyReloadsAndTakesOneSegment : Obligations.CarryOnlyReloadsAndTakesOneSegment := by
  intro s
  refine ⟨exec_expireCarry s, fun hacc => ?_⟩
  have hsub : (s.acc - 65535#32).toNat = s.acc.toNat - 65535 := by bv_omega
  omega

/-- Settles O22: the record of the step, with the ROM, the index and the hold bit spelt out. -/
theorem stepPerformsTheFiveActions : Obligations.StepPerformsTheFiveActions := by
  intro s
  exact congrArg Host.Outcome.next (stepMotor_record s)

/-- The index one step on, as a number modulo 4. -/
theorem nextModeIndex_toNat : ∀ (ccw : Bool) (m : BitVec 2),
    (nextModeIndex ccw m).toNat = (m.toNat + if ccw then 1 else 3) % 4 := by
  decide

/-- The mode index after a step. -/
theorem modeIndex_stepMotor (s : State) : modeIndex (stepMotor s) = nextModeIndex (direction s) (modeIndex s) := by
  rw [modeIndex, stepMotor_active]
  exact (withModeIndex_fields _ _).1

/-- Settles O23: the step writes the next index over bits 1:0 of the control byte. -/
theorem modeIndexMovesByOneModuloFour : Obligations.ModeIndexMovesByOneModuloFour := by
  intro s
  have hindex : (modeIndex (stepMotor s)).toNat = ((modeIndex s).toNat + if direction s then 1 else 3) % 4 := by
    rw [modeIndex_stepMotor, nextModeIndex_toNat]
  refine ⟨_, exec_expireStep s, fun hccw => ?_, fun hcw => ?_, ?_⟩
  · rwa [direction, directionField, hccw] at hindex
  · rwa [direction, directionField, hcw] at hindex
  · rw [stepMotor_active]
    exact (withModeIndex_fields _ _).2.1

/-! ### The telemetry stream -/

/-- Settles O17: the index selects the byte, and each byte is a field of the counter. -/
theorem telemetryIsHighByteLowByteThenZeros : Obligations.TelemetryIsHighByteLowByteThenZeros := by
  intro c
  refine ⟨rfl, ?msb32, ?hi16, ?low, fun i hi => ?rest⟩
  case msb32 =>
    rw [highByte, BitVec.extractLsb'_toNat, Nat.shiftRight_eq_div_pow]
    exact Nat.mod_eq_of_lt (by omega)
  case hi16 => rw [highByte, BitVec.extractLsb'_toNat, Nat.shiftRight_eq_div_pow]
  case low => exact BitVec.extractLsb'_toNat ..
  case rest => rw [telemetryByte, if_neg (by omega), if_neg (by omega)]

/-! ### The address byte -/

/-- A matching address whose read is not honoured is acknowledged and starts reception (R123). -/
theorem addressDecide_of_match {a : BitVec 7} (ha : a = Config.ownAddr ∨ a = Config.bcastAddr) {rw : Bool} {s : State}
    (hnot : readHonoured rw s = false) :
    addressDecide a rw s = { s with rw := false, proto := .receiveByte, sr := 0x00#8, oe := true, bitcnt := 1#4 } := by
  rw [addressDecide, if_pos ((addressMatches_iff a).mpr ha), addressMatch, hnot]
  rfl

/-- A matching address whose read is honoured is acknowledged, starts transmission and spends the arm (R123). -/
theorem addressDecide_of_honoured {a : BitVec 7} (ha : a = Config.ownAddr ∨ a = Config.bcastAddr) {s : State}
    (harm : s.readExpected = true) :
    addressDecide a true s =
      { s with rw := true, readExpected := false, proto := .transmitCheck, sr := 0x00#8, oe := true, bitcnt := 1#4 } := by
  rw [addressDecide, if_pos ((addressMatches_iff a).mpr ha), addressMatch, readHonoured, harm]
  rfl

/-- Settles O14: the decision of R122 on a matching address, with the read arm as it is. -/
theorem matchingAddressIsAcknowledged : Obligations.MatchingAddressIsAcknowledged := by
  intro a s ha
  refine ⟨?_, fun harm => ?_, fun harm => ?_⟩
  · rw [exec_addrW, addressDecide_of_match ha rfl]
  · rw [exec_addrR, addressDecide_of_honoured ha harm]
  · rw [exec_addrR, addressDecide_of_match ha (by rw [readHonoured, harm]; rfl)]

/-- An address that does not match gets a NACK, whatever its R/W bit (R124). -/
theorem addressDecide_of_mismatch {a : BitVec 7} (hown : a ≠ Config.ownAddr) (hbcast : a ≠ Config.bcastAddr) (rw : Bool)
    (s : State) :
    addressDecide a rw s = { s with sr := 0xFF#8, oe := true, bitcnt := 1#4, proto := .idlePrep } := by
  have hmatch : ¬ addressMatches a = true := fun h => ((addressMatches_iff a).mp h).elim hown hbcast
  rw [addressDecide, if_neg hmatch]
  rfl

/-- Settles O15: the mismatch does not look at the R/W bit. -/
theorem mismatchingAddressIsNotAcknowledged : Obligations.MismatchingAddressIsNotAcknowledged := by
  intro a s hown hbcast
  exact ⟨congrArg Host.Outcome.next (addressDecide_of_mismatch hown hbcast false s),
    congrArg Host.Outcome.next (addressDecide_of_mismatch hown hbcast true s)⟩

/-- Settles O32: the R/W bit of the byte in `SR` chooses the row. -/
theorem addressWaitRunsTheAddressByte : Obligations.AddressWaitRunsTheAddressByte := by
  intro s
  refine ⟨_, fun hw => ?_, fun hr => ?_, exec_shiftDoneAddressWait s⟩
  · rw [exec_addrW, rwField, hw, addrField]
  · rw [exec_addrR, rwField, hr, addrField]

/-! ### Clock pulses -/

/-- Settles O24: START is `startSession`, which tests nothing. -/
theorem startRestartsTheSession : Obligations.StartRestartsTheSession := by
  intro s
  rw [exec_start, startSession]

/-- A bit shifted in as arithmetic on the byte. -/
theorem shiftedIn_toNat (sr : Byte) (b : Bool) : (shiftedIn sr b).toNat = (2 * sr.toNat + b.toNat) % 256 := by
  revert sr b
  decide

/-- Settles O25: a pulse before the last only shifts, and the level is the wired-AND of R100 and R101. -/
theorem pulseShiftsTheLineLevelIn : Obligations.PulseShiftsTheLineLevelIn := by
  intro m s hcnt
  refine ⟨_, execBit_of_gt (by bv_omega) (by bv_omega), rfl, ?_⟩
  rw [shiftBit_sr, shiftedIn_toNat, lineLevel, sdaPullLow]
  cases m <;> cases s.oe <;> cases s.sr.getLsbD 7 <;> rfl

/-- Settles O26: the last pulse of a shift raises SHIFT_DONE, which is dispatched on the protocol state. -/
theorem lastPulseRaisesShiftDone : Obligations.LastPulseRaisesShiftDone := by
  intro m s h1
  have hshift : shiftBit m s = { s with sr := shiftedIn s.sr (lineLevel m s), bitcnt := 0#4 } := by
    rw [shiftBit, h1]
    rfl
  refine ⟨hshift, ?_⟩
  rw [exec_bit, execBit_of_one h1]
  refine ⟨?_, ?_, ?_, ?_, ?_, ?_⟩ <;> intro hp <;> rw [shiftDone, shiftBit_proto, hp] <;> rfl

/-! ### Data bytes -/

/-- SHIFT_DONE in ReceiveCheck at the opcode position. -/
theorem receiveCheck_of_zero {s : State} (hrx : s.rxIndex = 0#4) :
    execShiftDoneReceiveCheck s =
      .next (acknowledge (firstCompletes (firstByte s.sr)) (firstEffect (firstByte s.sr) s)) := by
  rw [execShiftDoneReceiveCheck, if_pos hrx]

/-- SHIFT_DONE in ReceiveCheck at a later position that STG has. -/
theorem receiveCheck_of_ne {s : State} (hrx : s.rxIndex ≠ 0#4) {t : State} (ht : storePayload s.sr s = .next t) :
    execShiftDoneReceiveCheck s = .next (acknowledge (payloadCompletes s) t) := by
  rw [execShiftDoneReceiveCheck, if_neg hrx, ht]

/-- Settles O27: an offset that STG does not have stops the store, and a shift that ends in Idle stops by name. -/
theorem unreachableCasesStopByName : Obligations.UnreachableCasesStopByName := by
  intro m v s
  refine ⟨fun h1 hp => ?_, fun hgt => ?_, fun hgt => ?_⟩
  · rw [exec_bit, execBit_of_one h1, shiftDone, shiftBit_proto, hp]
  · rw [exec_payloadN, storePayload_of_gt hgt]
  · have hne : s.rxIndex ≠ 0#4 := by bv_omega
    rw [exec_shiftDoneReceiveCheck, execShiftDoneReceiveCheck, if_neg hne, storePayload_of_gt hgt]

/-- Settles O28: each of the two is `request` of its number of bits and a new protocol state (R126, R131). -/
theorem blockReleasesTheLineAndRequestsTheNextShift : Obligations.BlockReleasesTheLineAndRequestsTheNextShift := by
  intro s
  exact ⟨rfl, rfl⟩

/-- Settles O29: SHIFT_DONE in IdlePrep is `endSession` (R125, R132). -/
theorem idlePrepEndsTheSession : Obligations.IdlePrepEndsTheSession := by
  intro s
  rfl

/-- The acknowledge at the end of ReceiveCheck in one record. -/
theorem acknowledge_eq (done : Bool) (s : State) :
    acknowledge done s =
      { s with sr := 0x00#8, oe := true, bitcnt := 1#4, proto := if done then .idlePrep else .receiveByte } := rfl

/-- Settles O30: at `RX_INDEX` 0 the byte is the instruction it decodes to, later it is PAYLOADn, and both are acknowledged. -/
theorem receiveCheckRunsTheByteAndAcknowledges : Obligations.ReceiveCheckRunsTheByteAndAcknowledges := by
  intro s
  constructor
  · intro hrx
    refine ⟨_, exec_firstInstr (firstByte s.sr) s, ?_⟩
    rw [exec_shiftDoneReceiveCheck, receiveCheck_of_zero hrx, acknowledge_eq, firstCompletes_eq]
  · intro hrx hle
    refine ⟨_, storePayload_of_le hle, ?_⟩
    rw [exec_shiftDoneReceiveCheck, receiveCheck_of_ne hrx (storePayload_of_le hle), acknowledge_eq, payloadCompletes]
    simp only [decide_eq_true_eq]

/-- Settles O31: the test of R129. -/
theorem transmitCheckStopsOnNackElseSends : Obligations.TransmitCheckStopsOnNackElseSends := by
  intro s
  have hnack : masterNack s = true ↔ s.txIndex ≠ 0#2 ∧ s.sr.getLsbD 0 = true := by simp [masterNack]
  rw [exec_shiftDoneTransmitCheck, exec_read]
  refine ⟨fun h => ?_, fun h => ⟨_, rfl, ?_⟩⟩
  · rw [if_pos (hnack.mpr h)]
    rfl
  · rw [if_neg fun hn => h (hnack.mp hn)]

/-! ### The step -/

/-- With an event waiting a step runs it as the instruction it is (R5). -/
theorem step_of_cons {e : Event} {rest : List Event} {s : State} (h : s.inputs = e :: rest) :
    step s = exec (eventInstr e) { s with inputs := rest } := by
  have hpop : popInput s = { s with inputs := rest } := by rw [popInput, h]; rfl
  rw [step, h, ← hpop]

/-- With no event waiting a step changes nothing (R5). -/
theorem step_of_nil {s : State} (h : s.inputs = []) : step s = .next s := by
  rw [step, h]

/-- Settles O34: the two cases of a step. -/
theorem stepRunsTheNextEvent : Obligations.StepRunsTheNextEvent := by
  intro e rest s
  exact ⟨step_of_cons, step_of_nil⟩

end Sys2Proof.Machine
end

section
/-! PROOFS. The step that brings in the last bit of a byte runs the instruction the byte decodes to; when a step stops, and when it
cannot. -/

namespace Sys2Proof.Machine

/-! ### The instruction a pulse completes -/

/-- Everything a clock pulse can complete: a byte at the address, the opcode or a later payload position, with its last bit. -/
theorem completedInstr_cases {m : Bool} {s : State} {i : Instr} (h : completedInstr m s = some i) :
    s.bitcnt = 1#4 ∧
      ((s.proto = .addressWait ∧ i = addressInstr (shiftBit m s).sr) ∨
        (s.proto = .receiveCheck ∧ s.rxIndex = 0#4 ∧ i = firstInstr (firstByte (shiftBit m s).sr)) ∨
        (s.proto = .receiveCheck ∧ s.rxIndex ≠ 0#4 ∧ i = .payloadN (shiftBit m s).sr)) := by
  have h1 : s.bitcnt = 1#4 := by
    by_contra hne
    rw [completedInstr, if_neg hne] at h
    exact absurd h (by simp)
  refine ⟨h1, ?_⟩
  cases hp : s.proto with
  | addressWait =>
    rw [completedInstr_address h1 hp, Option.some.injEq] at h
    exact .inl ⟨rfl, h.symm⟩
  | receiveCheck =>
    by_cases hrx : s.rxIndex = 0#4
    · rw [completedInstr_first h1 hp hrx, Option.some.injEq] at h
      exact .inr (.inl ⟨rfl, hrx, h.symm⟩)
    · rw [completedInstr_payload h1 hp hrx, Option.some.injEq] at h
      exact .inr (.inr ⟨rfl, hrx, h.symm⟩)
  | idle | idlePrep | receiveByte | transmitCheck | waitAck =>
    simp [completedInstr, receivePosition, hp] at h

/-- An address byte is run as the decision of R122 on its fields. -/
theorem exec_addressInstr (b : Byte) (s : State) :
    exec (addressInstr b) s = .next (addressDecide (addrField b) (rwField b) s) := by
  cases hrw : rwField b <;> rw [addressInstr, hrw] <;> rfl

/-- The last pulse of an address byte (R122). -/
theorem execBit_address {m : Bool} {s : State} (h1 : s.bitcnt = 1#4) (hp : s.proto = .addressWait) :
    execBit m s =
      .next (addressDecide (addrField (shiftBit m s).sr) (rwField (shiftBit m s).sr) (shiftBit m s)) := by
  rw [execBit_of_one h1, shiftDone, shiftBit_proto, hp]
  rfl

/-- The last pulse of a data byte (R127). -/
theorem execBit_receiveCheck {m : Bool} {s : State} (h1 : s.bitcnt = 1#4) (hp : s.proto = .receiveCheck) :
    execBit m s = execShiftDoneReceiveCheck (shiftBit m s) := by
  rw [execBit_of_one h1, shiftDone, shiftBit_proto, hp]

/-- The pulse that completes a byte runs the instruction the byte decodes to: at each position instruction and pulse are the same
effect, for a data byte with its acknowledge after it. -/
theorem execBit_of_completed {m : Bool} {s : State} {i : Instr} (hle : s.rxIndex.toNat ≤ 8)
    (hi : completedInstr m s = some i) :
    ∃ t, exec i (shiftBit m s) = .next t ∧
      (s.proto = .addressWait → execBit m s = .next t) ∧
      (s.proto = .receiveCheck → execBit m s = .next
        { t with
          sr := 0x00#8, oe := true, bitcnt := 1#4
          proto :=
            if (s.rxIndex = 0#4 ∧ implementedOpcodes.contains (shiftBit m s).sr = true) ∨ s.rxIndex = 8#4 then .idlePrep
            else .receiveByte }) ∧
      (s.proto = .addressWait ∨ s.proto = .receiveCheck) := by
  obtain ⟨h1, ⟨hp, rfl⟩ | ⟨hp, hrx, rfl⟩ | ⟨hp, hrx, rfl⟩⟩ := completedInstr_cases hi
  · refine ⟨_, exec_addressInstr _ _, fun _ => execBit_address h1 hp, fun hcheck => ?_, .inl hp⟩
    exact absurd (hp.symm.trans hcheck) (by decide)
  · refine ⟨_, exec_firstInstr _ _, fun haddr => absurd (hp.symm.trans haddr) (by decide), fun _ => ?_, .inr hp⟩
    rw [execBit_receiveCheck h1 hp, receiveCheck_of_zero (s := shiftBit m s) hrx, acknowledge_eq, firstCompletes_eq]
    simp [hrx]
  · refine ⟨_, storePayload_of_le hle, fun haddr => absurd (hp.symm.trans haddr) (by decide), fun _ => ?_, .inr hp⟩
    rw [execBit_receiveCheck h1 hp, receiveCheck_of_ne (s := shiftBit m s) hrx (storePayload_of_le hle), acknowledge_eq,
      payloadCompletes]
    by_cases h8 : s.rxIndex = 8#4 <;> simp [hrx, h8]

/-- Settles O35: the step is the clock pulse in the state without the event, which completes the same byte. -/
theorem stepRunsTheInstructionTheByteDecodesTo : Obligations.StepRunsTheInstructionTheByteDecodesTo := by
  intro m rest s i hinputs hle hi
  rw [step_of_cons hinputs]
  exact execBit_of_completed (s := { s with inputs := rest }) hle hi

/-! ### When a step stops -/

/-- From registers that fit the protocol state a clock pulse goes on: nothing is outstanding in Idle, and no offset is above 8. -/
theorem execBit_next_of_sessionInv {s : State} (hs : SessionInv s) (m : Bool) : ∃ t, execBit m s = .next t := by
  obtain ⟨hfits, -, hrx, -, -⟩ := hs
  by_cases h0 : s.bitcnt = 0#4
  · exact ⟨s, by rw [execBit, if_pos h0]⟩
  by_cases h1 : s.bitcnt = 1#4
  · rw [execBit_of_one h1, shiftDone, shiftBit_proto]
    cases hp : s.proto with
    | idle =>
      simp only [shiftFits, hp, decide_eq_true_eq] at hfits
      exact absurd hfits.1 h0
    | receiveCheck =>
      by_cases hrx0 : s.rxIndex = 0#4
      · exact ⟨_, receiveCheck_of_zero (s := shiftBit m s) hrx0⟩
      · exact ⟨_, receiveCheck_of_ne (s := shiftBit m s) hrx0 (storePayload_of_le hrx)⟩
    | addressWait | idlePrep | receiveByte | transmitCheck | waitAck => exact ⟨_, rfl⟩
  · exact ⟨_, execBit_of_gt h0 h1⟩

/-- A TICK goes on unless a running timer has a zero count (R80). -/
theorem execTick_next_or_zero (s : State) : (∃ t, execTick s = .next t) ∨ (s.tRun = true ∧ s.tCnt = 0#16) := by
  cases hrun : s.tRun with
  | false => exact .inl ⟨s, execTick_of_stopped hrun⟩
  | true =>
    by_cases h0 : s.tCnt = 0#16
    · exact .inr ⟨rfl, h0⟩
    by_cases h1 : s.tCnt = 1#16
    · exact .inl ⟨_, execTick_of_one hrun h1⟩
    · exact .inl ⟨_, execTick_of_gt_one hrun (by bv_omega)⟩

/-- Settles O44: bus events and RESET go on, and a TICK that does not has a zero count, which the timer invariant allows with a zero
period alone. -/
theorem onlyAZeroPeriodStopsTheMachine : Obligations.OnlyAZeroPeriodStopsTheMachine := by
  rintro s ⟨hsession, ⟨hcnt, -⟩, -, -⟩
  cases hinputs : s.inputs with
  | nil => exact .inl ⟨s, step_of_nil hinputs⟩
  | cons e rest =>
    rw [step_of_cons hinputs]
    cases e with
    | reset => exact .inl ⟨_, exec_reset _⟩
    | start => exact .inl ⟨_, exec_start _⟩
    | bit m => exact .inl (execBit_next_of_sessionInv (s := { s with inputs := rest }) hsession m)
    | tick =>
      rcases execTick_next_or_zero { s with inputs := rest } with hnext | ⟨hrun, h0⟩
      · exact .inl hnext
      · exact .inr ⟨execTick_of_zero hrun h0, hcnt hrun h0, hrun⟩

/-- The invariants together are kept by every step. -/
theorem step_keeps_inv {s t : State} (hs : s.Inv) (h : step s = .next t) : t.Inv := by
  obtain ⟨hsession, htimer, houtput, hstaged⟩ := hs
  exact ⟨everyStepKeepsTheSessionInvariant s t hsession h, everyStepKeepsTheTimerInvariant s t htimer h,
    everyStepKeepsTheOutputsLegal s t houtput h, everyStepKeepsTheStagedBytesCanonical s t hstaged h⟩

/-! ### A zero period stands still -/

/-- A zero period stands still after a TICK: a stopped timer ignores it, and a running one has another period, which it keeps. -/
theorem TickEffect.motionInv {s t : State} (hs : MotionInv s) (h : TickEffect s t) : MotionInv t := by
  cases h with
  | stopped => exact hs
  | counted hrun | carried hrun => exact hs
  | stepped hrun =>
    intro hperiod
    rw [stepMotor_active] at hperiod
    exact absurd hrun (by rw [(hs hperiod).1]; decide)

/-- A zero period stands still after a command that is neither a BEGIN with a zero period nor a RESUME with no steps left. -/
theorem CommandMotion.motionInv {f : FirstByte} {s u : State} (hs : MotionInv s) (h : CommandMotion s f u)
    (hzero : instrHazard (firstInstr f) s ≠ some .zeroPeriod) (hresume : instrHazard (firstInstr f) s ≠ some .resumeAtZero) :
    MotionInv u := by
  cases h with
  | none | enable | disable => exact hs
  | pause => exact fun hperiod => ⟨rfl, (hs hperiod).2⟩
  | begin hcount =>
    intro hperiod
    have hready : stagedReady s = true := (stagedReady_iff s).mpr hcount
    exact absurd (by simp [firstInstr, instrHazard, hready, show stagedPeriod s = 0#32 from hperiod]) hzero
  | resume =>
    intro hperiod
    have hdone : motionComplete s = true := decide_eq_true (hs hperiod).2
    exact absurd (by simp [firstInstr, instrHazard, hdone]) hresume

/-- The invariant that a zero period stands still reads the motion alone. -/
theorem motionInv_of_motionView_eq {s t : State} (hs : MotionInv s) (h : motionView t = motionView s) : MotionInv t := by
  obtain ⟨hactive, -, -, -, hrun, -, -⟩ := motionView_eq_iff.1 h
  simpa only [MotionInv, hactive, hrun] using hs

/-- A zero period stands still after every event that is neither hazard. -/
theorem EventEffect.motionInv {e : Event} {s t : State} (hs : MotionInv s) (h : EventEffect s e t)
    (hzero : eventHazard e s ≠ some .zeroPeriod) (hresume : eventHazard e s ≠ some .resumeAtZero) : MotionInv t := by
  cases h with
  | reset => exact (by decide : MotionInv State.reset)
  | tick htick => exact htick.motionInv hs
  | start => exact hs
  | bit hpulse =>
    rcases hpulse.motion with hmotion | ⟨f, u, hi, hcommand, hmotion⟩
    · exact motionInv_of_motionView_eq hs hmotion
    · rw [eventHazard, hi] at hzero hresume
      exact motionInv_of_motionView_eq (hcommand.motionInv hs hzero hresume) hmotion

/-- Settles O45: the one stop there is needs a running timer with a zero period, which stands still; and the invariants are kept. -/
theorem stepsAvoidingMotionHazardsNeverStop : Obligations.StepsAvoidingMotionHazardsNeverStop := by
  intro s hs hmotion hsafe
  obtain ⟨t, ht⟩ : ∃ t, step s = .next t := by
    rcases onlyAZeroPeriodStopsTheMachine s hs with hnext | ⟨-, hperiod, hrun⟩
    · exact hnext
    · exact absurd hrun (by rw [(hmotion hperiod).1]; decide)
  refine ⟨t, ht, step_keeps_inv hs ht, ?_⟩
  rcases step_cases ht with ⟨-, rfl⟩ | ⟨e, rest, hinputs, hexec⟩
  · exact hmotion
  · obtain ⟨hzero, hresume⟩ := hsafe e (by rw [hinputs]; rfl)
    exact (eventEffect_of_exec hexec).motionInv (s := { s with inputs := rest }) hmotion hzero hresume

end Sys2Proof.Machine
end

section
/-! PROOFS. Rules of the whole machine: which events can reach the motor, the driver, the command block, the read arm and the staged
bytes; what a TICK depends on. -/

namespace Sys2Proof.Machine

/-- A command keeps the phase lines and the mode index: BEGIN commits everything but the mode index (R181). -/
theorem CommandMotion.motor {f : FirstByte} {s u : State} (h : CommandMotion s f u) :
    u.phase = s.phase ∧ modeIndex u = modeIndex s := by
  cases h with
  | begin => exact ⟨rfl, (withModeIndex_fields _ _).1⟩
  | none | enable | disable | pause | resume => exact ⟨rfl, rfl⟩

/-- Settles O46: START does not touch the motion, and a pulse does to it what a command does at most. -/
theorem busEventsNeverMoveTheMotor : Obligations.BusEventsNeverMoveTheMotor := by
  intro s t h
  rcases h with hstart | ⟨m, hbit⟩
  · obtain rfl : startSession s = t := Host.Outcome.next.inj hstart
    exact ⟨rfl, rfl⟩
  · rcases (pulseEffect_of_execBit hbit).motion with hmotion | ⟨f, u, -, hcommand, hmotion⟩
    · obtain ⟨hactive, -, -, -, -, hphase, -⟩ := motionView_eq_iff.1 hmotion
      exact ⟨hphase, by rw [modeIndex, hactive, modeIndex]⟩
    · obtain ⟨hactive, -, -, -, -, hphase, -⟩ := motionView_eq_iff.1 hmotion
      obtain ⟨hphase', hindex⟩ := hcommand.motor
      exact ⟨hphase.trans hphase', by rw [modeIndex, hactive, ← hindex, modeIndex]⟩

/-- A TICK does not assert the driver. -/
theorem TickEffect.drvEn {s t : State} (h : TickEffect s t) : t.drvEn = s.drvEn ∨ t.drvEn = 0b00#2 := by
  cases h with
  | stopped | counted | carried => exact .inl rfl
  | stepped =>
    rw [stepMotor_drvEn]
    split
    · exact .inr rfl
    · exact .inl rfl

/-- Settles O47: RESET clears `DRV_EN`, a TICK keeps or clears it, and of the commands ENABLE alone sets it. -/
theorem onlyEnableAssertsTheDriver : Obligations.OnlyEnableAssertsTheDriver := by
  intro e s t h hbefore hafter
  cases eventEffect_of_exec h with
  | reset => exact absurd hafter (by decide : State.reset.drvEn ≠ 0b11#2)
  | start => exact absurd hafter hbefore
  | tick htick =>
    rcases htick.drvEn with hkept | hcleared
    · exact absurd (hkept.symm.trans hafter) hbefore
    · exact absurd (hcleared.symm.trans hafter) (by decide)
  | bit hpulse =>
    rcases hpulse.motion with hmotion | ⟨f, u, hi, hcommand, hmotion⟩
    · obtain ⟨-, -, -, -, -, -, hdrv⟩ := motionView_eq_iff.1 hmotion
      exact absurd (hdrv.symm.trans hafter) hbefore
    · obtain ⟨-, -, -, -, -, -, hdrv⟩ := motionView_eq_iff.1 hmotion
      rw [hdrv] at hafter
      cases hcommand with
      | enable => exact ⟨_, rfl, hi⟩
      | disable => exact absurd hafter (by decide : (0b00#2 : BitVec 2) ≠ 0b11#2)
      | none | begin | pause | resume => exact absurd hafter hbefore

/-- A TICK keeps the period and bits 7:2 of the control byte. -/
theorem TickEffect.command {s t : State} (h : TickEffect s t) :
    t.active.period = s.active.period ∧ t.active.control.extractLsb' 2 6 = s.active.control.extractLsb' 2 6 := by
  cases h with
  | stopped | counted | carried => exact ⟨rfl, rfl⟩
  | stepped =>
    rw [stepMotor_active]
    exact ⟨rfl, (withModeIndex_fields _ _).2.1⟩

/-- Settles O48: of the commands, BEGIN with a staged count that is not zero is the one that writes `ACTIVE`. -/
theorem onlyACommittingBeginReplacesTheCommand : Obligations.OnlyACommittingBeginReplacesTheCommand := by
  intro e s t h hchanged
  cases eventEffect_of_exec h with
  | reset => exact .inl rfl
  | start => exact absurd hchanged (by simp)
  | tick htick => exact absurd hchanged (by simp [htick.command])
  | bit hpulse =>
    rcases hpulse.motion with hmotion | ⟨f, u, hi, hcommand, hmotion⟩
    · exact absurd hchanged (by simp [(motionView_eq_iff.1 hmotion).1])
    · rw [(motionView_eq_iff.1 hmotion).1] at hchanged
      cases hcommand with
      | begin hcount => exact .inr ⟨_, rfl, hi, hcount⟩
      | none | enable | disable | pause | resume => exact absurd hchanged (by simp)

/-- A command sets the read arm when it is READ_STEPS and leaves it otherwise. -/
theorem firstEffect_readExpected (f : FirstByte) (s : State) :
    (firstEffect f s).readExpected = s.readExpected ∨ (f = .readSteps ∧ (firstEffect f s).readExpected = true) := by
  cases f with
  | readSteps => exact .inr ⟨rfl, rfl⟩
  | begin => exact .inl (by simp only [firstEffect, beginMotion]; split <;> rfl)
  | enable | disable | pause | resume | stop | readPeriod | readSettings | payload => exact .inl rfl

/-- Settles O49: RESET clears the arm, a pulse changes it by READ_STEPS or by the honoured read alone. -/
theorem readArmIsSticky : Obligations.ReadArmIsSticky := by
  intro e s t h hchanged
  cases eventEffect_of_exec h with
  | reset => exact .inr ⟨rfl, .inl rfl⟩
  | start => exact absurd rfl hchanged
  | tick htick => exact absurd (by rw [htick.session]) hchanged
  | bit hpulse =>
    cases hpulse.wire with
    | none _ _ harm | payload _ _ _ _ _ harm => exact absurd harm hchanged
    | command f hi _ _ harm =>
      rcases firstEffect_readExpected f s with hkept | ⟨rfl, hset⟩
      · exact absurd (harm.trans hkept) hchanged
      · exact .inl ⟨harm.trans hset, _, rfl, hi⟩
    | read a hi ha _ _ harm => exact .inr ⟨harm, .inr ⟨_, a, rfl, hi, (addressMatches_iff a).mp ha⟩⟩

/-- Settles O50: RESET empties the staged block, and of the bytes of the wire those listed reach it. -/
theorem onlyPayloadBytesAndBeginTouchTheStagedBytes : Obligations.OnlyPayloadBytesAndBeginTouchTheStagedBytes := by
  intro e s t h hchanged
  cases eventEffect_of_exec h with
  | reset => exact .inl rfl
  | start => exact absurd rfl hchanged
  | tick htick => exact absurd (by rw [htick.session]) hchanged
  | bit hpulse =>
    refine .inr ?_
    cases hpulse.wire with
    | none _ hstaged | read _ _ _ _ hstaged => exact absurd hstaged hchanged
    | payload v hi => exact ⟨_, _, rfl, hi, by simp⟩
    | command f hi _ hstaged =>
      refine ⟨_, _, rfl, hi, ?_⟩
      cases f with
      | enable | disable | pause | resume | readSteps => exact absurd hstaged hchanged
      | begin | stop | readPeriod | readSettings | payload => simp [firstInstr]

/-- Settles O52: a command that reaches the motion is one of the five. -/
theorem otherBusTrafficLeavesTheMotionAlone : Obligations.OtherBusTrafficLeavesTheMotionAlone := by
  intro m s t h henable hdisable hbegin hpause hresume
  rcases (pulseEffect_of_execBit h).motion with hmotion | ⟨f, u, hi, hcommand, hmotion⟩
  · exact hmotion
  · cases hcommand with
    | none => exact hmotion
    | enable => exact absurd hi henable
    | disable => exact absurd hi hdisable
    | begin => exact absurd hi hbegin
    | pause => exact absurd hi hpause
    | resume => exact absurd hi hresume

/-! ### What a TICK depends on -/

/-- A state with the motion of another is that state's motion over its own session. -/
theorem eq_of_motionView_eq {s u : State} (h : motionView u = motionView s) :
    u = { u with
          active := s.active, acc := s.acc, tReload := s.tReload, tCnt := s.tCnt, tRun := s.tRun, phase := s.phase,
          drvEn := s.drvEn } := by
  obtain ⟨hactive, hacc, hreload, hcnt, hrun, hphase, hdrv⟩ := motionView_eq_iff.1 h
  rw [← hactive, ← hacc, ← hreload, ← hcnt, ← hrun, ← hphase, ← hdrv]

/-- A step makes the same motion of equal motions. -/
theorem motionView_stepMotor {s u : State} (h : motionView u = motionView s) :
    motionView (stepMotor u) = motionView (stepMotor s) := by
  rw [eq_of_motionView_eq h, stepMotor_record, stepMotor_record s]
  rfl

/-- A count-down makes the same motion of equal motions. -/
theorem motionView_countDown {s u : State} (h : motionView u = motionView s) :
    motionView (countDown u) = motionView (countDown s) := by
  rw [eq_of_motionView_eq h]
  rfl

/-- A carry makes the same motion of equal motions. -/
theorem motionView_carry {s u : State} (h : motionView u = motionView s) :
    motionView (carry u) = motionView (carry s) := by
  rw [eq_of_motionView_eq h]
  rfl

/-- Settles O51: what TICK tests and writes is the motion, case by case of what it can do. -/
theorem tickDependsOnTheMotionAlone : Obligations.TickDependsOnTheMotionAlone := by
  intro s t h
  have htick := execTick_eq_next_iff.1 h
  refine ⟨htick.session, fun u hu => ?_⟩
  obtain ⟨-, hacc, -, hcnt, hrun, -, -⟩ := motionView_eq_iff.1 hu
  simp only [exec_tick, execTick_eq_next_iff]
  cases htick with
  | stopped hstop => exact ⟨u, .stopped (hrun.trans hstop), hu⟩
  | counted hgo h1 => exact ⟨_, .counted (hrun.trans hgo) (hcnt ▸ h1), motionView_countDown hu⟩
  | carried hgo h1 hgt =>
    exact ⟨_, .carried (hrun.trans hgo) (hcnt.trans h1) (hacc ▸ hgt), motionView_carry (motionView_countDown hu)⟩
  | stepped hgo h1 hle =>
    exact ⟨_, .stepped (hrun.trans hgo) (hcnt.trans h1) (hacc ▸ hle), motionView_stepMotor (motionView_countDown hu)⟩

end Sys2Proof.Machine
end

section
/-! PROOFS. Time (spec/40_stepping_engine.md section 4): the ticks until the next step, the ticks between two steps, and the ticks and
steps of a whole motion. -/

namespace Sys2Proof.Machine

/-! ### Runs -/

/-- A run is the run of its first part and then of the rest. -/
theorem runEvents_append {es fs : List Event} {s t : State} (h : runEvents es s = .next t) :
    runEvents (es ++ fs) s = runEvents fs t := by
  induction es generalizing s with
  | nil =>
    obtain rfl : s = t := Host.Outcome.next.inj h
    rfl
  | cons e es ih =>
    rw [runEvents] at h
    rw [List.cons_append, runEvents]
    cases hexec : exec (eventInstr e) s with
    | next u =>
      rw [hexec] at h
      exact ih h
    | fault f => exact absurd (hexec ▸ h) (by simp)
    | refused r => exact absurd (hexec ▸ h) (by simp)

/-- `a + b` ticks are `a` ticks and then `b`. -/
theorem runTicks_add {a b : Nat} {s t : State} (h : runTicks a s = .next t) : runTicks (a + b) s = runTicks b t := by
  rw [runTicks, ← List.replicate_append_replicate]
  exact runEvents_append h

/-- One tick and then the rest. -/
theorem runTicks_succ {n : Nat} {s t : State} (h : execTick s = .next t) : runTicks (n + 1) s = runTicks n t := by
  rw [runTicks, List.replicate_succ, runEvents]
  simp only [eventInstr, exec_tick, h]
  rfl

/-! ### One tick -/

/-- The timer runs, and neither its count nor the accumulator is zero. -/
structure Running (s : State) : Prop where
  run : s.tRun = true
  cnt : s.tCnt ≠ 0#16
  acc : s.acc ≠ 0#32

/-- `u` is `k` ticks after `s`, and no step came in between: the motor stands, and the next step is `k` ticks nearer. -/
structure Waited (k : Nat) (s u : State) : Prop where
  ticks : ticksToStep u + k = ticksToStep s
  active : u.active = s.active
  phase : u.phase = s.phase
  drvEn : u.drvEn = s.drvEn
  running : Running u
  timer : TimerInv s → TimerInv u

theorem Waited.refl {s : State} (hs : Running s) : Waited 0 s s := ⟨rfl, rfl, rfl, rfl, hs, id⟩

theorem Waited.trans {j k : Nat} {s t u : State} (h : Waited j s t) (h' : Waited k t u) : Waited (k + j) s u where
  ticks := by rw [← h.ticks, ← h'.ticks, Nat.add_assoc]
  active := h'.active.trans h.active
  phase := h'.phase.trans h.phase
  drvEn := h'.drvEn.trans h.drvEn
  running := h'.running
  timer := fun hs => h'.timer (h.timer hs)

/-- A running timer is at least one tick from its step. -/
theorem Running.one_le_ticksToStep {s : State} (hs : Running s) : 1 ≤ ticksToStep s := by
  have hcnt := hs.cnt
  have hpos : 1 ≤ s.tCnt.toNat := by bv_omega
  rw [ticksToStep]
  omega

/-- A TICK of a timer more than one tick from its step counts down, or carries: either way the step is one tick nearer (R90). -/
theorem tick_of_one_lt {s : State} (hs : Running s) (h : 1 < ticksToStep s) :
    ∃ t, execTick s = .next t ∧ Waited 1 s t := by
  obtain ⟨hrun, hcnt, hacc⟩ := hs
  simp only [ticksToStep, Config.timerMax] at h
  by_cases h1 : s.tCnt = 1#16
  · have hsegment : 65535 < s.acc.toNat := by
      have : s.tCnt.toNat = 1 := by rw [h1]; rfl
      omega
    have heffect := TickEffect.carried hrun h1 hsegment
    refine ⟨_, execTick_eq_next_iff.2 heffect, ?_, rfl, rfl, rfl, ⟨hrun, by simp, ?_⟩, fun htimer => heffect.timerInv htimer⟩
    · have hsub : (s.acc - 65535#32).toNat = s.acc.toNat - 65535 := by bv_omega
      simp only [ticksToStep, Config.timerMax, carry_tCnt, carry_acc, countDown_acc, hsub, h1, BitVec.toNat_ofNat]
      omega
    · rw [carry_acc, countDown_acc]
      bv_omega
  · have hgt : 1 < s.tCnt.toNat := by bv_omega
    have heffect := TickEffect.counted hrun hgt
    refine ⟨_, execTick_eq_next_iff.2 heffect, ?_, rfl, rfl, rfl, ⟨hrun, ?_, hacc⟩, fun htimer => heffect.timerInv htimer⟩
    · have hsub : (s.tCnt - 1#16).toNat = s.tCnt.toNat - 1 := by bv_omega
      simp only [ticksToStep, countDown_tCnt, countDown_acc, hsub]
      omega
    · rw [countDown_tCnt]
      bv_omega

/-- The last tick before the step has a count of 1 and no segment to carry. -/
theorem last_tick {s : State} (hs : Running s) (h : ticksToStep s = 1) : s.tCnt = 1#16 ∧ s.acc.toNat ≤ 65535 := by
  obtain ⟨hrun, hcnt, hacc⟩ := hs
  have hpos : 1 ≤ s.tCnt.toNat := by bv_omega
  simp only [ticksToStep, Config.timerMax] at h
  have h1 : s.tCnt.toNat = 1 := by omega
  exact ⟨by bv_omega, by omega⟩

/-- One tick before the step a TICK is the step. -/
theorem tick_of_one {s : State} (hs : Running s) (h : ticksToStep s = 1) : execTick s = .next (stepMotor (countDown s)) := by
  obtain ⟨hcnt, hacc⟩ := last_tick hs h
  exact execTick_eq_next_iff.2 (.stepped hs.run hcnt hacc)

/-- Settles O53: the two lemmas on one tick. -/
theorem tickBringsTheNextStepOneTickNearer : Obligations.TickBringsTheNextStepOneTickNearer := by
  intro s hrun hcnt hacc
  have hs : Running s := ⟨hrun, hcnt, hacc⟩
  constructor
  · intro h
    obtain ⟨t, ht, hwait⟩ := tick_of_one_lt hs h
    exact ⟨t, ht, Nat.eq_sub_of_add_eq hwait.ticks, hwait.active, hwait.phase, hwait.drvEn, hwait.running.run,
      hwait.running.cnt, hwait.running.acc⟩
  · intro h
    refine ⟨_, tick_of_one hs h, ?_⟩
    rw [exec_expireStep, countDown_of_one (last_tick hs h).1]

/-! ### From step to step -/

/-- The fields of the control byte are those of equal active blocks. -/
theorem modeIndex_congr {s t : State} (h : t.active = s.active) : modeIndex t = modeIndex s := by
  rw [modeIndex, h, modeIndex]
theorem direction_congr {s t : State} (h : t.active = s.active) : direction t = direction s := by
  rw [direction, h, direction]
theorem holdPosition_congr {s t : State} (h : t.active = s.active) : holdPosition t = holdPosition s := by
  rw [holdPosition, h, holdPosition]

/-- Until the tick of the step the motor stands. -/
theorem runTicks_of_lt {k : Nat} {s : State} (hs : Running s) (hk : k < ticksToStep s) :
    ∃ u, runTicks k s = .next u ∧ Waited k s u := by
  induction k generalizing s with
  | zero => exact ⟨s, rfl, .refl hs⟩
  | succ k ih =>
    obtain ⟨t, ht, hwait⟩ := tick_of_one_lt hs (by omega)
    have hticks := hwait.ticks
    obtain ⟨u, hu, hwait'⟩ := ih hwait.running (by omega)
    exact ⟨u, (runTicks_succ ht).trans hu, hwait.trans hwait'⟩

/-- The tick of the step steps, from a state that has only waited. -/
theorem runTicks_ticksToStep {s : State} (hs : Running s) :
    ∃ u, Waited (ticksToStep s - 1) s u ∧ u.acc.toNat ≤ 65535 ∧
      runTicks (ticksToStep s) s = .next (stepMotor (countDown u)) := by
  have hpos := hs.one_le_ticksToStep
  obtain ⟨u, hu, hwait⟩ := runTicks_of_lt hs (k := ticksToStep s - 1) (by omega)
  have hlast : ticksToStep u = 1 := by have := hwait.ticks; omega
  refine ⟨u, hwait, (last_tick hwait.running hlast).2, ?_⟩
  calc runTicks (ticksToStep s) s = runTicks (ticksToStep s - 1 + 1) s := by rw [Nat.sub_add_cancel hpos]
    _ = runTicks 1 u := runTicks_add hu
    _ = .next (stepMotor (countDown u)) := runTicks_succ (tick_of_one hwait.running hlast)

/-- A timer that runs with a non-zero period is not at zero, nor is its accumulator. -/
theorem running_of_timerInv {s : State} (hs : TimerInv s) (hrun : s.tRun = true) (hperiod : s.active.period ≠ 0#32) :
    Running s := by
  obtain ⟨hcnt, -, -, hacc⟩ := hs
  exact ⟨hrun, fun h => hperiod (hcnt hrun h), fun h => hperiod (hacc h)⟩

/-- After a step that leaves a count the timer runs on, and the next step is a whole period away: the final reload is the rest of the
period, and the accumulator holds the segments still to carry (R90). -/
theorem running_after_step {u : State} (hu : Running u) (htimer : TimerInv u) (hacc : u.acc.toNat ≤ 65535)
    (hcount : u.active.stepCounter ≠ 1#32) :
    Running (stepMotor (countDown u)) ∧ TimerInv (stepMotor (countDown u)) ∧
      ticksToStep (stepMotor (countDown u)) = u.active.period.toNat := by
  obtain ⟨-, hle, hmod, hzero⟩ := htimer
  have hne := hu.acc
  have hpos : 1 ≤ u.acc.toNat := by bv_omega
  have hreload := finalReload_toNat hacc
  refine ⟨⟨?_, ?_, ?_⟩, timerInv_stepMotor hacc hzero, ?_⟩
  · have hleft : u.active.stepCounter - 1#32 ≠ 0#32 := by bv_omega
    rw [stepMotor_tRun, countDown_active, if_neg hleft]
    exact hu.run
  · intro h
    rw [stepMotor_tCnt, countDown_acc] at h
    rw [h] at hreload
    exact absurd hreload (by rw [BitVec.toNat_ofNat]; omega)
  · rw [stepMotor_acc, countDown_active]
    bv_omega
  · simp only [ticksToStep, Config.timerMax, stepMotor_tCnt, stepMotor_acc, countDown_acc, countDown_active, hreload] at hmod ⊢
    omega

/-- Settles O54: the step one tick away leaves a running timer a whole period from the next step, until which the motor stands. -/
theorem stepsAreExactlyPeriodTicksApart : Obligations.StepsAreExactlyPeriodTicksApart := by
  intro s htimer hrun hperiod hone hcount
  have hs := running_of_timerInv htimer hrun hperiod
  obtain ⟨ht, -, hticks⟩ := running_after_step hs htimer (last_tick hs hone).2 hcount
  refine ⟨stepMotor (countDown s), runTicks_succ (tick_of_one hs hone), by rw [stepMotor_active, countDown_active], ?_, ?_⟩
  · intro k hk
    obtain ⟨u, hu, hwait⟩ := runTicks_of_lt ht (hk.trans_eq hticks.symm)
    exact ⟨u, hu, hwait.active, hwait.phase⟩
  · obtain ⟨u, hwait, -, hv⟩ := runTicks_ticksToStep ht
    refine ⟨_, hticks ▸ hv, ?_, ?_⟩
    · rw [stepMotor_active, countDown_active, hwait.active, stepMotor_active, countDown_active]
      bv_omega
    · rw [stepMotor_phase, modeIndex_congr (t := countDown u) hwait.active]

/-! ### A whole motion -/

/-- The motion of `s` runs for `time` ticks and not fewer, and takes `n` steps: then the timer is stopped, the count is zero, the driver
is kept with hold and let go without, and the index is `n` steps on. -/
def RunsOut (s : State) (time n : Nat) : Prop :=
  (∀ k, k < time → ∃ u, runTicks k s = .next u ∧ u.tRun = true) ∧
  ∃ t, runTicks time s = .next t ∧ t.tRun = false ∧ t.active.stepCounter = 0#32 ∧
    t.drvEn = (if holdPosition s then s.drvEn else 0b00#2) ∧
    (modeIndex t).toNat = ((modeIndex s).toNat + (if direction s then n else 3 * n)) % 4

/-- With one step left the motion ends with the next step. -/
theorem runsOut_one {s : State} (hs : Running s) (hcount : s.active.stepCounter = 1#32) : RunsOut s (ticksToStep s) 1 := by
  refine ⟨fun k hk => ?_, ?_⟩
  · obtain ⟨u, hu, hwait⟩ := runTicks_of_lt hs hk
    exact ⟨u, hu, hwait.running.run⟩
  · obtain ⟨u, hwait, -, ht⟩ := runTicks_ticksToStep hs
    have hactive : (countDown u).active = s.active := hwait.active
    have hzero : s.active.stepCounter - 1#32 = 0#32 := by rw [hcount]; rfl
    refine ⟨_, ht, ?_, ?_, ?_, ?_⟩
    · rw [stepMotor_tRun, hactive, if_pos hzero]
    · rw [stepMotor_active, hactive, hzero]
    · rw [stepMotor_drvEn, hactive, hzero, holdPosition_congr hactive, countDown_drvEn, hwait.drvEn]
      cases holdPosition s <;> simp
    · rw [modeIndex_stepMotor, nextModeIndex_toNat, modeIndex_congr hactive, direction_congr hactive]

/-- A step that is not the last puts the motion one step on in its direction, and leaves hold, driver and direction as they are. -/
theorem step_in_motion {s u : State} (hactive : u.active = s.active) (hdrv : u.drvEn = s.drvEn)
    (hcount : s.active.stepCounter ≠ 1#32) :
    (modeIndex (stepMotor u)).toNat = ((modeIndex s).toNat + if direction s then 1 else 3) % 4 ∧
      direction (stepMotor u) = direction s ∧ holdPosition (stepMotor u) = holdPosition s ∧
      (stepMotor u).drvEn = s.drvEn := by
  obtain ⟨-, -, hdirection, hhold⟩ := withModeIndex_fields u.active.control (nextModeIndex (direction u) (modeIndex u))
  have hleft : u.active.stepCounter - 1#32 ≠ 0#32 := by rw [hactive]; bv_omega
  refine ⟨?_, ?_, ?_, ?_⟩
  · rw [modeIndex_stepMotor, nextModeIndex_toNat, modeIndex_congr hactive, direction_congr hactive]
  · rw [direction, stepMotor_active, hdirection, ← direction, direction_congr hactive]
  · rw [holdPosition, stepMotor_active, hhold, ← holdPosition, holdPosition_congr hactive]
  · rw [stepMotor_drvEn, if_neg fun h => hleft h.1, hdrv]

/-- A motion whose next step is not its last takes the ticks to that step and those of the rest. -/
theorem runsOut_succ {s u : State} {time n : Nat} (hs : Running s) (hwait : Waited (ticksToStep s - 1) s u)
    (hstep : runTicks (ticksToStep s) s = .next (stepMotor (countDown u))) (hcount : s.active.stepCounter ≠ 1#32)
    (hrest : RunsOut (stepMotor (countDown u)) time n) : RunsOut s (ticksToStep s + time) (n + 1) := by
  obtain ⟨hruns, v, hv, hstop, hzero, hdrv, hindex⟩ := hrest
  obtain ⟨hnext, hdirection, hhold, hkept⟩ := step_in_motion (u := countDown u) hwait.active hwait.drvEn hcount
  refine ⟨fun k hk => ?_, v, (runTicks_add hstep).trans hv, hstop, hzero, ?_, ?_⟩
  · rcases Nat.lt_or_ge k (ticksToStep s) with hlt | hge
    · obtain ⟨w, hw, hwait'⟩ := runTicks_of_lt hs hlt
      exact ⟨w, hw, hwait'.running.run⟩
    · obtain ⟨w, hw, hrun⟩ := hruns (k - ticksToStep s) (by omega)
      exact ⟨w, by rw [← Nat.add_sub_cancel' hge, runTicks_add hstep, hw], hrun⟩
  · rw [hdrv, hkept, hhold]
  · rw [hindex, hnext, hdirection]
    cases direction s <;> simp <;> omega

/-- A motion of `n + 1` steps takes the ticks to its first step and `n` periods. -/
theorem runsOut {n : Nat} {s : State} (hs : Running s) (htimer : TimerInv s) (hcount : s.active.stepCounter.toNat = n + 1) :
    RunsOut s (ticksToStep s + n * s.active.period.toNat) (n + 1) := by
  induction n generalizing s with
  | zero =>
    rw [Nat.zero_mul, Nat.add_zero]
    exact runsOut_one hs (by bv_omega)
  | succ n ih =>
    obtain ⟨u, hwait, hacc, hstep⟩ := runTicks_ticksToStep hs
    have hne : s.active.stepCounter ≠ 1#32 := by bv_omega
    obtain ⟨ht, htimer', hticks⟩ :=
      running_after_step hwait.running (hwait.timer htimer) hacc (by rw [hwait.active]; exact hne)
    have hrest := ih ht htimer' (by rw [stepMotor_active, countDown_active, hwait.active]; bv_omega)
    rw [hticks, stepMotor_active, countDown_active, hwait.active] at hrest
    have hall := runsOut_succ hs hwait hstep hne hrest
    rwa [Nat.add_comm (BitVec.toNat _) (n * _), ← Nat.succ_mul] at hall

/-- What a committing BEGIN leaves for the motion: a running timer one tick and the carries of the period from its first step, the
staged fields of the control byte, the old index and the driver. -/
theorem beginMotion_motion {s : State} (hcount : stagedCount s ≠ 0#32) :
    (beginMotion s).tRun = true ∧ (beginMotion s).active.period = stagedPeriod s ∧
      (beginMotion s).active.stepCounter = stagedCount s ∧ TimerInv (beginMotion s) ∧
      ticksToStep (beginMotion s) = 1 + 65535 * carriesOf (stagedPeriod s) ∧
      modeIndex (beginMotion s) = modeIndex s ∧ direction (beginMotion s) = directionField (stagedControl s) ∧
      holdPosition (beginMotion s) = holdField (stagedControl s) ∧ (beginMotion s).drvEn = s.drvEn := by
  obtain ⟨hindex, -, hdirection, hhold⟩ := withModeIndex_fields (stagedControl s) (modeIndex s)
  rw [beginMotion_of_ne hcount]
  exact ⟨rfl, rfl, rfl, ⟨fun _ h => absurd h (by simp), le_refl _, by simp, id⟩, rfl, hindex, hdirection, hhold, rfl⟩

/-- Settles O55: BEGIN starts a motion of the staged count, and a motion takes its ticks and its steps. -/
theorem begunMotionTakesExactlyItsSteps : Obligations.BegunMotionTakesExactlyItsSteps := by
  intro s b hcount hperiod hb
  obtain rfl : beginMotion s = b := Host.Outcome.next.inj hb
  obtain ⟨hrun, hp, hn, htimer, hticks, hindex, hdirection, hhold, hdrv⟩ := beginMotion_motion hcount
  have hpos : (stagedCount s).toNat - 1 + 1 = (stagedCount s).toNat := by bv_omega
  have hout := runsOut (running_of_timerInv htimer hrun (by rwa [hp])) htimer (by rw [hn, hpos])
  rwa [hpos, hticks, hp, RunsOut, hindex, hdirection, hhold, hdrv] at hout

end Sys2Proof.Machine
end

section
/-! PROOFS. Bytes and transactions (spec/41_i2c_bit_layer.md section 3, spec/42_i2c_framing.md section 7): what a run of clock pulses
leaves and what the line shows meanwhile, put together pulse by pulse, byte by byte. -/

namespace Sys2Proof.Machine

/-! ### What the line shows -/

/-- The events take `s` to `t`, and the data line shows the levels `ls` meanwhile. -/
def Shows (es : List Event) (s : State) (ls : List Bool) (t : State) : Prop :=
  runEvents es s = .next t ∧ seenLevels es s = ls

/-- What is seen of the first event and then of the rest. -/
theorem seenLevels_cons {e : Event} {es : List Event} {s t : State} (h : exec (eventInstr e) s = .next t) :
    seenLevels (e :: es) s = seenLevels [e] s ++ seenLevels es t := by
  cases e <;> simp only [seenLevels, h, List.append_nil]

/-- What is seen of a run is what is seen of its first part and then of the rest. -/
theorem seenLevels_append {es fs : List Event} {s t : State} (h : runEvents es s = .next t) :
    seenLevels (es ++ fs) s = seenLevels es s ++ seenLevels fs t := by
  induction es generalizing s with
  | nil =>
    obtain rfl : s = t := Host.Outcome.next.inj h
    rfl
  | cons e es ih =>
    rw [runEvents] at h
    cases hexec : exec (eventInstr e) s with
    | next u =>
      rw [hexec] at h
      rw [List.cons_append, seenLevels_cons (es := es ++ fs) hexec, ih h, seenLevels_cons (es := es) hexec, List.append_assoc]
    | fault f => exact absurd (hexec ▸ h) (by simp)
    | refused r => exact absurd (hexec ▸ h) (by simp)

/-- Runs one after the other. -/
theorem Shows.append {es fs : List Event} {s t u : State} {ls ks : List Bool} (h : Shows es s ls t) (h' : Shows fs t ks u) :
    Shows (es ++ fs) s (ls ++ ks) u :=
  ⟨(runEvents_append h.1).trans h'.1, by rw [seenLevels_append h.1, h.2, h'.2]⟩

theorem pulses_append (ls ks : List Bool) : pulses (ls ++ ks) = pulses ls ++ pulses ks := List.map_append

/-- A start condition shows nothing. -/
theorem shows_start (s : State) : Shows [.start] s [] (startSession s) := ⟨rfl, rfl⟩

/-- One clock pulse shows the level of the line (R100). -/
theorem shows_pulse {m : Bool} {s t : State} (h : execBit m s = .next t) : Shows (pulses [m]) s [lineLevel m s] t := by
  constructor
  · simp only [pulses, List.map_cons, List.map_nil, runEvents, eventInstr, exec_bit, h]
  · simp only [pulses, List.map_cons, List.map_nil, seenLevels, eventInstr, exec_bit, h, List.append_nil]

/-- While the block does not drive the line, it shows what the others put there. -/
theorem lineLevel_of_released {s : State} (hoe : s.oe = false) (m : Bool) : lineLevel m s = m := by
  simp [lineLevel, sdaPullLow, hoe]

/-- While the block drives the line, a 0 in `SR[7]` pulls it low. -/
theorem lineLevel_of_driven {s : State} (hoe : s.oe = true) (m : Bool) : lineLevel m s = (m && s.sr.getLsbD 7) := by
  simp [lineLevel, sdaPullLow, hoe]

/-! ### A byte received -/

/-- With the line released by the block a pulse shifts its level in. -/
theorem shiftBit_of_released {s : State} (hoe : s.oe = false) (m : Bool) :
    shiftBit m s = { s with sr := shiftedIn s.sr m, bitcnt := s.bitcnt - 1#4 } := by
  rw [shiftBit, lineLevel_of_released hoe]

/-- The last pulse of a shift, the line released by the block, leaves nothing to shift. -/
theorem shiftBit_last_of_released {s : State} (h1 : s.bitcnt = 1#4) (hoe : s.oe = false) (m : Bool) :
    shiftBit m s = { s with sr := shiftedIn s.sr m, bitcnt := 0#4 } := by
  rw [shiftBit_of_released hoe, h1]
  rfl

/-- Pulses before the last of a shift, the line released by the block, shift their levels in. -/
theorem shows_received {ls : List Bool} {s : State} (hoe : s.oe = false) (hlen : ls.length < s.bitcnt.toNat) :
    Shows (pulses ls) s ls
      { s with sr := ls.foldl shiftedIn s.sr, bitcnt := s.bitcnt - BitVec.ofNat 4 ls.length } := by
  induction ls generalizing s with
  | nil => exact ⟨by rw [List.length_nil, BitVec.sub_zero]; rfl, rfl⟩
  | cons m ls ih =>
    rw [List.length_cons] at hlen
    have hpulse := shows_pulse (execBit_of_gt (m := m) (s := s) (by bv_omega) (by bv_omega))
    rw [lineLevel_of_released hoe, shiftBit_of_released hoe] at hpulse
    have hrest := ih (s := { s with sr := shiftedIn s.sr m, bitcnt := s.bitcnt - 1#4 }) hoe
      (show ls.length < (s.bitcnt - 1#4).toNat by bv_omega)
    have hcount : s.bitcnt - BitVec.ofNat 4 (ls.length + 1) = s.bitcnt - 1#4 - BitVec.ofNat 4 ls.length := by bv_omega
    rw [List.length_cons, hcount]
    exact hpulse.append hrest

/-- The bits of a byte after a shift: the new bit below the old ones. -/
theorem shiftedIn_getLsbD (sr : Byte) (b : Bool) (i : Nat) :
    (shiftedIn sr b).getLsbD i = if i = 0 then b else (decide (i < 8) && sr.getLsbD (i - 1)) := by
  rw [shiftedIn, BitVec.getLsbD_append]
  cases i with
  | zero => simp
  | succ i =>
    have hlt : i + 1 < 8 ↔ i < 7 := Nat.succ_lt_succ_iff
    simp [hlt]

/-- Eight bits shifted in are the byte, whatever stood in the register. -/
theorem foldl_shiftedIn_byteLevels (b sr : Byte) : (byteLevels b).foldl shiftedIn sr = b := by
  apply BitVec.eq_of_getLsbD_eq
  intro i hi
  simp only [byteLevels, List.foldl, shiftedIn_getLsbD]
  interval_cases i <;> rfl

/-- The levels of a byte are its first seven and its lowest bit. -/
theorem byteLevels_eq (b : Byte) : (byteLevels b).take 7 ++ [b.getLsbD 0] = byteLevels b := rfl

/-- The first seven bits of a byte shifted in. -/
theorem shows_seven {s : State} (hcnt : s.bitcnt = 8#4) (hoe : s.oe = false) (b : Byte) :
    Shows (pulses ((byteLevels b).take 7)) s ((byteLevels b).take 7)
      { s with sr := ((byteLevels b).take 7).foldl shiftedIn s.sr, bitcnt := 1#4 } := by
  have hseven : ((byteLevels b).take 7).length = 7 := rfl
  have hshows := shows_received (ls := (byteLevels b).take 7) hoe (by rw [hcnt, hseven]; decide)
  rwa [hcnt, hseven] at hshows

/-- The eighth bit after the first seven makes the byte. -/
theorem shiftedIn_eighth (b sr : Byte) : shiftedIn (((byteLevels b).take 7).foldl shiftedIn sr) (b.getLsbD 0) = b := by
  have hbyte := foldl_shiftedIn_byteLevels b sr
  rwa [← byteLevels_eq, List.foldl_append] at hbyte

/-- Settles O56: seven pulses before the last shift in seven bits, and with the eighth the register holds the byte. -/
theorem eightPulsesReceiveAByte : Obligations.EightPulsesReceiveAByte := by
  intro b s hcnt hoe
  have hlast := shiftBit_last_of_released
    (s := { s with sr := ((byteLevels b).take 7).foldl shiftedIn s.sr, bitcnt := 1#4 }) rfl hoe (b.getLsbD 0)
  rw [shiftedIn_eighth] at hlast
  exact ⟨_, (shows_seven hcnt hoe b).1, rfl, hlast⟩

/-- The last pulse of a shift, the line released by the block, goes on as SHIFT_DONE does with the level shifted in. -/
theorem shows_last_released {m : Bool} {s t : State} (h1 : s.bitcnt = 1#4) (hoe : s.oe = false)
    (h : shiftDone { s with sr := shiftedIn s.sr m, bitcnt := 0#4 } = .next t) : Shows (pulses [m]) s [m] t := by
  have hshows := shows_pulse ((execBit_of_one (m := m) h1).trans (shiftBit_last_of_released h1 hoe m ▸ h))
  rwa [lineLevel_of_released hoe] at hshows

/-- The last pulse of a shift, the line driven by the block, goes on as SHIFT_DONE does with the wired-AND level shifted in. -/
theorem shows_last_driven {m : Bool} {s t : State} (h1 : s.bitcnt = 1#4) (hoe : s.oe = true)
    (h : shiftDone { s with sr := shiftedIn s.sr (m && s.sr.getLsbD 7), bitcnt := 0#4 } = .next t) :
    Shows (pulses [m]) s [m && s.sr.getLsbD 7] t := by
  have hshift : shiftBit m s = { s with sr := shiftedIn s.sr (m && s.sr.getLsbD 7), bitcnt := 0#4 } := by
    rw [shiftBit, lineLevel_of_driven hoe, h1]
    rfl
  have hshows := shows_pulse ((execBit_of_one (m := m) h1).trans (hshift ▸ h))
  rwa [lineLevel_of_driven hoe] at hshows

/-- A byte received is shown on the line and raises SHIFT_DONE with the byte in `SR`. -/
theorem shows_byte {b : Byte} {s t : State} (hcnt : s.bitcnt = 8#4) (hoe : s.oe = false)
    (h : shiftDone { s with sr := b, bitcnt := 0#4 } = .next t) : Shows (pulses (byteLevels b)) s (byteLevels b) t := by
  have hlast := shows_last_released (m := b.getLsbD 0) (t := t)
    (s := { s with sr := ((byteLevels b).take 7).foldl shiftedIn s.sr, bitcnt := 1#4 }) rfl hoe
    (by rw [shiftedIn_eighth]; exact h)
  have hall := (shows_seven hcnt hoe b).append hlast
  rwa [← pulses_append, byteLevels_eq] at hall

/-! ### A byte sent -/

/-- A bit sent on a line that the others release comes back into `SR` at the low end: the byte is turned by one bit. -/
def turned (v : Byte) : Byte := shiftedIn v (v.getLsbD 7)

/-- The levels of a byte being sent, the highest bit first, for `k` pulses. -/
def sentLevels : Nat → Byte → List Bool
  | 0, _ => []
  | k + 1, v => v.getLsbD 7 :: sentLevels k (turned v)

/-- Eight pulses send the eight bits of a byte and turn it once around. -/
theorem turned_eight : ∀ v : Byte,
    sentLevels 7 v ++ [(turned^[7] v).getLsbD 7] = byteLevels v ∧ turned (turned^[7] v) = v := by
  decide

/-- A pulse on a released line while the block sends. -/
theorem shiftBit_of_sending {s : State} (hoe : s.oe = true) :
    shiftBit true s = { s with sr := turned s.sr, bitcnt := s.bitcnt - 1#4 } := by
  rw [shiftBit, lineLevel_of_driven hoe, Bool.true_and, turned]

/-- Pulses before the last of a byte being sent. -/
theorem shows_sending {k : Nat} {s : State} (hoe : s.oe = true) (hlen : k < s.bitcnt.toNat) :
    Shows (pulses (List.replicate k true)) s (sentLevels k s.sr)
      { s with sr := turned^[k] s.sr, bitcnt := s.bitcnt - BitVec.ofNat 4 k } := by
  induction k generalizing s with
  | zero => exact ⟨by rw [BitVec.sub_zero]; rfl, rfl⟩
  | succ k ih =>
    have hpulse := shows_pulse (execBit_of_gt (m := true) (s := s) (by bv_omega) (by bv_omega))
    rw [lineLevel_of_driven hoe, Bool.true_and, shiftBit_of_sending hoe] at hpulse
    have hrest := ih (s := { s with sr := turned s.sr, bitcnt := s.bitcnt - 1#4 }) hoe
      (show k < (s.bitcnt - 1#4).toNat by bv_omega)
    have hcount : s.bitcnt - BitVec.ofNat 4 (k + 1) = s.bitcnt - 1#4 - BitVec.ofNat 4 k := by bv_omega
    rw [hcount]
    exact hpulse.append hrest

/-- A byte sent is shown on a released line, stands in `SR` again, and raises SHIFT_DONE. -/
theorem shows_sent {s t : State} (hcnt : s.bitcnt = 8#4) (hoe : s.oe = true)
    (h : shiftDone { s with bitcnt := 0#4 } = .next t) :
    Shows (pulses (List.replicate 8 true)) s (byteLevels s.sr) t := by
  obtain ⟨hlevels, hback⟩ := turned_eight s.sr
  have hseven := shows_sending (k := 7) hoe (by rw [hcnt]; decide)
  rw [hcnt] at hseven
  have hlast := shows_last_driven (m := true) (s := { s with sr := turned^[7] s.sr, bitcnt := 1#4 }) (t := t) rfl hoe
    (by rw [Bool.true_and, ← turned, hback]; exact h)
  rw [Bool.true_and] at hlast
  have hall := hseven.append hlast
  rwa [hlevels, ← pulses_append] at hall

/-- Settles O57: SHIFT_DONE in WaitAck after the byte. -/
theorem eightPulsesSendAByte : Obligations.EightPulsesSendAByte := by
  intro s hcnt hoe hp
  exact (shows_sent hcnt hoe (by rw [shiftDone, hp]; rfl)).symm

/-! ### Acknowledge clocks -/

/-- An acknowledge of the block is shown whatever the others put on the line, and raises SHIFT_DONE with `SR` still 0. -/
theorem shows_ack {s t : State} (m : Bool) (h1 : s.bitcnt = 1#4) (hoe : s.oe = true) (hsr : s.sr = 0x00#8)
    (h : shiftDone { s with sr := 0x00#8, bitcnt := 0#4 } = .next t) : Shows (pulses [m]) s [false] t := by
  have hlow : (m && s.sr.getLsbD 7) = false := by rw [hsr]; exact Bool.and_false m
  have hlast := shows_last_driven (m := m) (t := t) h1 hoe (by rw [hlow, hsr]; exact h)
  rwa [hlow] at hlast

/-- A NACK of the block leaves the clock to the others. -/
theorem shows_nack {s t : State} (m : Bool) (h1 : s.bitcnt = 1#4) (hoe : s.oe = true) (hsr : s.sr = 0xFF#8)
    (h : shiftDone { s with sr := 0x7F#7 ++ BitVec.ofBool m, bitcnt := 0#4 } = .next t) : Shows (pulses [m]) s [m] t := by
  have hhigh : (m && s.sr.getLsbD 7) = m := by rw [hsr]; exact Bool.and_true m
  have hlast := shows_last_driven (m := m) (t := t) h1 hoe (by rw [hhigh, hsr]; exact h)
  rwa [hhigh] at hlast

/-- An idle shifter ignores the clock, and the line shows the others. -/
theorem shows_idle {s : State} (hcnt : s.bitcnt = 0#4) (hoe : s.oe = false) (ls : List Bool) :
    Shows (pulses ls) s ls s := by
  induction ls with
  | nil => exact ⟨rfl, rfl⟩
  | cons m ls ih =>
    have hpulse := shows_pulse (m := m) (s := s) (t := s) (by rw [execBit, if_pos hcnt])
    rw [lineLevel_of_released hoe] at hpulse
    exact hpulse.append ih

end Sys2Proof.Machine
end

section
/-! PROOFS. Whole transactions (spec/42_i2c_framing.md section 7): a command, a transaction to another device, an armed read. -/

namespace Sys2Proof.Machine

/-- The state with its session closed: `STATE` Idle, the indices, `RW`, `BITCNT` and `OE` zero, and `v` left in `SR`. -/
def sessionClosed (v : Byte) (s : State) : State :=
  { s with proto := .idle, rxIndex := 0#4, txIndex := 0#2, rw := false, sr := v, bitcnt := 0#4, oe := false }

/-- A command does the same whatever the session registers hold. -/
theorem sessionClosed_firstEffect (f : FirstByte) (v : Byte) (s : State) :
    sessionClosed v (firstEffect f (sessionClosed v s)) = sessionClosed v (firstEffect f s) := by
  cases f with
  | begin =>
    by_cases hcount : stagedCount s = 0#32
    · rw [firstEffect, firstEffect, beginMotion_of_zero hcount, beginMotion_of_zero (s := sessionClosed v s) hcount]
      rfl
    · rw [firstEffect, firstEffect, beginMotion_of_ne hcount, beginMotion_of_ne (s := sessionClosed v s) hcount]
      rfl
  | enable | disable | pause | resume | stop | readPeriod | readSteps | readSettings | payload => rfl

/-- A start condition and an address byte: the line shows the byte, and the block takes the decision of R122. -/
theorem shows_address (a : BitVec 7) (rw : Bool) (s : State) :
    Shows (.start :: pulses (byteLevels (addressByte a rw))) s (byteLevels (addressByte a rw))
      (addressDecide a rw { startSession s with sr := addressByte a rw, bitcnt := 0#4 }) := by
  obtain ⟨haddr, hrw⟩ := addressByte_fields a rw
  have hdone : shiftDone { startSession s with sr := addressByte a rw, bitcnt := 0#4 } =
      .next (addressDecide a rw { startSession s with sr := addressByte a rw, bitcnt := 0#4 }) := by
    show Host.Outcome.next (addressDecide (addrField (addressByte a rw)) (rwField (addressByte a rw)) _) = _
    rw [haddr, hrw]
  exact (shows_start s).append (shows_byte rfl rfl hdone)

/-- The state in which a session that was addressed for a write awaits its data byte at the opcode position. -/
def awaitingFirst (s : State) : State :=
  { s with
    rw := false, proto := .receiveCheck, sr := 0x00#8, oe := false, bitcnt := 8#4, rxIndex := 0#4, txIndex := 0#2 }

/-- A start condition, a matching address byte for a write and its acknowledge clock. -/
theorem shows_addressed_write {a : BitVec 7} (ha : a = Config.ownAddr ∨ a = Config.bcastAddr) (m : Bool) (s : State) :
    Shows (.start :: pulses (byteLevels (addressByte a false) ++ [m])) s (byteLevels (addressByte a false) ++ [false])
      (awaitingFirst s) := by
  have haddress := shows_address a false s
  rw [addressDecide_of_match ha rfl] at haddress
  have hack : Shows (pulses [m]) _ [false] (awaitingFirst s) :=
    shows_ack (s := { startSession s with rw := false, proto := .receiveByte, sr := 0x00#8, oe := true, bitcnt := 1#4 })
      m rfl rfl rfl rfl
  rw [pulses_append, ← List.cons_append]
  exact haddress.append hack

/-- An implemented opcode at the opcode position and its acknowledge clock: the command has its effect and the session is closed. -/
theorem shows_command {op : Byte} (hop : implementedOpcodes.contains op = true) (n : Bool) (s : State) :
    Shows (pulses (byteLevels op ++ [n])) (awaitingFirst s) (byteLevels op ++ [false])
      (sessionClosed 0x00#8 (firstEffect (firstByte op) s)) := by
  have hdone : shiftDone { awaitingFirst s with sr := op, bitcnt := 0#4 } =
      .next (acknowledge true (firstEffect (firstByte op) { awaitingFirst s with sr := op, bitcnt := 0#4 })) := by
    show execShiftDoneReceiveCheck _ = _
    rw [receiveCheck_of_zero rfl, firstCompletes_eq, hop]
  have hack := shows_ack (s := acknowledge true (firstEffect (firstByte op) { awaitingFirst s with sr := op, bitcnt := 0#4 }))
    (t := sessionClosed 0x00#8 (firstEffect (firstByte op) { awaitingFirst s with sr := op, bitcnt := 0#4 })) n rfl rfl rfl rfl
  rw [← sessionClosed_firstEffect] at hack ⊢
  rw [pulses_append]
  exact (shows_byte rfl rfl hdone).append hack

/-- Settles O58: the addressed write, then the command, from the state that awaits it. -/
theorem commandTransactionRunsTheCommand : Obligations.CommandTransactionRunsTheCommand := by
  intro a op m n s ha hop
  have hall := (shows_addressed_write ha m s).append (shows_command hop n s)
  refine ⟨?_, _, exec_firstInstr (firstByte op) s, ?_⟩
  · rintro ⟨rfl, rfl⟩
    rfl
  · rw [List.cons_append, ← pulses_append, ← List.append_assoc, ← List.append_assoc] at hall
    exact hall

/-- Settles O59: the NACK leaves the acknowledge clock to the others and closes the session, and an idle shifter ignores the rest. -/
theorem unmatchedTransactionChangesNoCommandBlock : Obligations.UnmatchedTransactionChangesNoCommandBlock := by
  intro a rw m later s hown hbcast
  have haddress := shows_address a rw s
  rw [addressDecide_of_mismatch hown hbcast] at haddress
  have hnack : Shows (pulses [m]) _ [m] (sessionClosed (0x7F#7 ++ BitVec.ofBool m) s) :=
    shows_nack (s := { startSession s with sr := 0xFF#8, oe := true, bitcnt := 1#4, proto := .idlePrep }) m rfl rfl rfl rfl
  have hall := (haddress.append hnack).append (shows_idle rfl rfl later)
  rw [List.cons_append, List.cons_append, ← pulses_append, ← pulses_append] at hall
  exact hall

/-! ### An armed read -/

/-- The state in which an honoured read sends the byte `v`, with `TX_INDEX` moved on to `i`. -/
def sending (i : BitVec 2) (v : Byte) (s : State) : State :=
  { s with
    rw := true, readExpected := false, proto := .waitAck, sr := v, oe := true, bitcnt := 8#4, rxIndex := 0#4, txIndex := i }

/-- The state in which an honoured read has sent the byte `v` and awaits the answer of the master. -/
def awaitingAnswer (i : BitVec 2) (v : Byte) (s : State) : State :=
  { s with
    rw := true, readExpected := false, proto := .transmitCheck, sr := v, oe := false, bitcnt := 1#4, rxIndex := 0#4
    txIndex := i }

/-- A start condition, a matching address byte for an armed read and its acknowledge clock: the first byte of the stream follows. -/
theorem shows_addressed_read {a : BitVec 7} (ha : a = Config.ownAddr ∨ a = Config.bcastAddr) (m : Bool) {s : State}
    (harm : s.readExpected = true) :
    Shows (.start :: pulses (byteLevels (addressByte a true) ++ [m])) s (byteLevels (addressByte a true) ++ [false])
      (sending 1#2 (telemetryByte s.active.stepCounter 0) s) := by
  have haddress := shows_address a true s
  rw [addressDecide_of_honoured ha (by exact harm)] at haddress
  have hack : Shows (pulses [m]) _ [false] (sending 1#2 (telemetryByte s.active.stepCounter 0) s) :=
    shows_ack
      (s := { startSession s with
              rw := true, readExpected := false, proto := .transmitCheck, sr := 0x00#8, oe := true, bitcnt := 1#4 })
      m rfl rfl rfl rfl
  rw [pulses_append, ← List.cons_append]
  exact haddress.append hack

/-- The eight clocks of a byte that is sent. -/
theorem shows_sending_byte (i : BitVec 2) (v : Byte) (s : State) :
    Shows (pulses (List.replicate 8 true)) (sending i v s) (byteLevels v) (awaitingAnswer i v s) :=
  shows_sent (s := sending i v s) rfl rfl rfl

/-- The bit shifted in last stands at the low end. -/
theorem shiftedIn_low (v : Byte) (b : Bool) : (shiftedIn v b).getLsbD 0 = b := by
  rw [shiftedIn_getLsbD, if_pos rfl]

/-- `?A`: the byte is shown, and the master's ACK brings the next byte of the stream. -/
theorem shows_clockAck (i : BitVec 2) (v : Byte) (s : State) :
    Shows (itemEvents .clockAck) (sending i v s) (byteLevels v ++ [false])
      (sending (nextTxIndex i) (telemetryByte s.active.stepCounter i.toNat) s) := by
  have hdone : shiftDone { awaitingAnswer i v s with sr := shiftedIn v false, bitcnt := 0#4 } =
      .next (sending (nextTxIndex i) (telemetryByte s.active.stepCounter i.toNat) s) := by
    have hnack : masterNack { awaitingAnswer i v s with sr := shiftedIn v false, bitcnt := 0#4 } = false := by
      rw [masterNack, shiftedIn_low, Bool.and_false]
    show execShiftDoneTransmitCheck _ = _
    rw [execShiftDoneTransmitCheck, hnack]
    rfl
  rw [itemEvents, pulses_append]
  exact (shows_sending_byte i v s).append (shows_last_released rfl rfl hdone)

/-- `?N`: the byte is shown, and the master's NACK closes the session. -/
theorem shows_clockNack {i : BitVec 2} (hi : i ≠ 0#2) (v : Byte) (s : State) :
    Shows (itemEvents .clockNack) (sending i v s) (byteLevels v ++ [true])
      (sessionClosed (shiftedIn v true) { s with readExpected := false }) := by
  have hdone : shiftDone { awaitingAnswer i v s with sr := shiftedIn v true, bitcnt := 0#4 } =
      .next (sessionClosed (shiftedIn v true) { s with readExpected := false }) := by
    have hnack : masterNack { awaitingAnswer i v s with sr := shiftedIn v true, bitcnt := 0#4 } = true := by
      rw [masterNack, shiftedIn_low, Bool.and_true]
      exact bne_iff_ne.mpr hi
    show execShiftDoneTransmitCheck _ = _
    rw [execShiftDoneTransmitCheck, hnack]
    rfl
  rw [itemEvents, pulses_append]
  exact (shows_sending_byte i v s).append (shows_last_released rfl rfl hdone)

/-- Settles O60: the addressed read, the high byte answered with ACK, the low byte answered with NACK. -/
theorem armedReadReturnsTheLiveCounter : Obligations.ArmedReadReturnsTheLiveCounter := by
  intro a m s ha harm
  have hhigh := shows_clockAck 1#2 (telemetryByte s.active.stepCounter 0) s
  have hlow := shows_clockNack (i := nextTxIndex 1#2) (by decide) (telemetryByte s.active.stepCounter 1) s
  have hall := (shows_addressed_read ha m harm).append (hhigh.append hlow)
  refine ⟨?_, hall.1, ?_⟩
  · rintro rfl
    rfl
  · rw [← List.append_assoc, ← List.append_assoc, ← List.append_assoc] at hall
    exact hall.2

end Sys2Proof.Machine
end
